-- ==== Sys2Proof/Word.lean ====
section
/-! DEFINITION. The word types of debounce_filter: the 9-bit cycle input word (30_encoding.md R34), the two
channels (00_scope.md R2), a value per channel, and the level of one port wire (00_scope.md R10). -/

namespace Sys2Proof

/-- The cycle input word `IW`, 9 bits (30_encoding.md R34). -/
abbrev IW := BitVec 9

/-- The two channels, one per button (00_scope.md R2): index 0 is arm, index 1 is react. -/
inductive Channel where
  | arm
  | react
deriving DecidableEq, Repr

/-- The channel index of 00_scope.md R2. -/
def Channel.index : Channel → Nat
  | .arm => 0
  | .react => 1

/-- The other channel, `1 - c`. -/
def Channel.other : Channel → Channel
  | .arm => .react
  | .react => .arm

/-- One value per channel: a two-bit port vector (00_scope.md R10) or a register `r[c]` (10_state.md). -/
structure Pair (α : Type) where
  arm : α
  react : α
deriving DecidableEq, Repr

/-- `r[c]`. -/
def Pair.get {α : Type} (p : Pair α) : Channel → α
  | .arm => p.arm
  | .react => p.react

/-- The pair whose value at channel c is `f c`. -/
def Pair.ofFn {α : Type} (f : Channel → α) : Pair α := ⟨f .arm, f .react⟩

/-- The level of one port wire as a four-valued signal: 0, 1, unknown (X) or high impedance (Z). Only the first
two are legal (00_scope.md R10, 92_eei_decisions.md D21). -/
inductive Wire where
  | low
  | high
  | unknown
  | highZ
deriving DecidableEq, Repr

/-- The one-bit value of a wire, where it has one (00_scope.md R10). -/
def Wire.bit : Wire → Option Bool
  | .low => some false
  | .high => some true
  | .unknown => none
  | .highZ => none

/-- The wire that carries a bit. -/
def Wire.ofBit : Bool → Wire
  | false => .low
  | true => .high

end Sys2Proof
end

