-- ==== Sys2Proof/Config.lean ====
section
/-! DEFINITION. What is fixed when the block is built (00_scope.md R4 to R7) with the constants derived from it
(10_state.md R18, 42_event_flag.md R64), the draw of one power-up (10_state.md R23), and the free value: what the
environment drives where nothing in the state says so (43_cycle_step.md R69). -/

namespace Sys2Proof

/-- The build-time parameters (00_scope.md R4 to R7). -/
structure Params where
  /-- `SYNC_STAGES` (R4) -/
  syncStages : Nat
  /-- `SETTLE_CYCLES` (R5) -/
  settleCycles : Nat
  /-- `SHARED_SETTLE` (R6) -/
  sharedSettle : Bool
  /-- `PRIORITY` (R7) -/
  priority : Channel
deriving DecidableEq, Repr

/-- The parameters as a builder is given them, before the refusal of 00_scope.md R8: `PRIORITY` is a number here. -/
structure BuildRequest where
  syncStages : Nat
  settleCycles : Nat
  sharedSettle : Bool
  priority : Nat
deriving DecidableEq, Repr

/-- The defaults of 00_scope.md R4, R6 and R7. `SETTLE_CYCLES` has none (R5): it is the argument. -/
def BuildRequest.withDefaults (settleCycles : Nat) : BuildRequest :=
  { syncStages := 2, settleCycles := settleCycles, sharedSettle := false, priority := 0 }

/-- `CNT_W = floor(log2(SETTLE_CYCLES)) + 1` (10_state.md R18). -/
def cntW (settleCycles : Nat) : Nat := Nat.log2 settleCycles + 1

/-- `LATENCY_CYCLES = SYNC_STAGES + SETTLE_CYCLES + 2` (42_event_flag.md R64). -/
def latencyCycles (syncStages settleCycles : Nat) : Nat := syncStages + settleCycles + 2

/-- The value 00_scope.md R5 recommends, `ceil(CLK_HZ * SETTLE_MS / 1000)`. `CLK_HZ` is an argument: the spec
leaves it OPEN (92_eei_decisions.md D5; log 15). -/
def recommendedSettleCycles (clkHz settleMs : Nat) : Nat := (clkHz * settleMs + 999) / 1000

/-- `LATENCY_CYCLES` in milliseconds, `LATENCY_CYCLES * 1000 / CLK_HZ` (42_event_flag.md R67), as an exact
rational number (log 15). -/
def latencyMilliseconds (syncStages settleCycles clkHz : Nat) : Rat :=
  ((latencyCycles syncStages settleCycles * 1000 : Nat) : Rat) / (clkHz : Rat)

/-- FREE VALUES (log 11): what one power-up leaves in the registers, a bit of each drawn freely (10_state.md R23). A draw
is an ARGUMENT of every power-up, so a claim quantifies over it; nothing relates the draws of two power-ups. -/
structure PowerUpDraw where
  /-- bit k is the draw of `sync[c][k]`; the bits from `SYNC_STAGES` on are not used -/
  stages : Pair Nat
  /-- `prev[c]` -/
  prev : Pair Bool
  /-- `pend[c]` -/
  pend : Pair Bool
  /-- `flag[c]` -/
  flag : Pair Bool
  /-- the low `CNT_W` bits are the draw of `cnt[c]`; the shared engine's one counter draws at arm -/
  count : Pair Nat
  /-- `owner` -/
  owner : Channel
deriving DecidableEq, Repr

namespace Config

/-- DESIGN CHOICE (unsafe, log 4): `SETTLE_CYCLES` of State.reset. The spec gives no default (00_scope.md R5). -/
def resetSettleCycles : Nat := 4

/-- FREE VALUE (log 2): the word the environment drives in cycle t when State lists no input for it
(43_cycle_step.md R69: the input words are free, one per cycle). DESIGN CHOICE (safe): it depends on the cycle's number alone,
so two runs that list nothing are driven alike; a claim over all inputs lists them (`IsRun`). -/
opaque environment : Nat → IW

end Config

end Sys2Proof
end

