-- ==== Sys2Proof/Syntax.lean ====
section
/-! DEFINITION. The syntax: the input ports, the decoded input word, the rows of opcode_table.json and `Instr`, one
constructor per row (30_encoding.md R34 to R36).

The rows are not exclusive: every row that applies to a word acts (R36). A constructor of `Instr` therefore carries
every bit of the word that its row's mask leaves open, in the order of the word's fields: it stands for ONE word seen
through that row (log 6). -/

namespace Sys2Proof

/-- One input port bit (10_state.md R11). `clk` is not part of the word. -/
inductive Port where
  | rst
  | btnRaw (c : Channel)
  | en (c : Channel)
  | clrPend (c : Channel)
  | consume (c : Channel)
deriving DecidableEq, Repr

/-- The input port bits in the order of the word, `IW[0]` first (30_encoding.md R34). -/
def Port.all : List Port :=
  [.rst, .btnRaw .arm, .btnRaw .react, .en .arm, .en .react, .clrPend .arm, .clrPend .react, .consume .arm, .consume .react]

/-- One value per input port (10_state.md R11). -/
structure Ports (α : Type) where
  rst : α
  btnRaw : Pair α
  en : Pair α
  clrPend : Pair α
  consume : Pair α
deriving DecidableEq, Repr

/-- The value at one port. -/
def Ports.get {α : Type} (p : Ports α) : Port → α
  | .rst => p.rst
  | .btnRaw c => p.btnRaw.get c
  | .en c => p.en.get c
  | .clrPend c => p.clrPend.get c
  | .consume c => p.consume.get c

/-- The ports whose value at port q is `f q`. -/
def Ports.ofFn {α : Type} (f : Port → α) : Ports α :=
  { rst := f .rst, btnRaw := .ofFn fun c => f (.btnRaw c), en := .ofFn fun c => f (.en c),
    clrPend := .ofFn fun c => f (.clrPend c), consume := .ofFn fun c => f (.consume c) }

/-- The decoded input word `ι_t`: one bit per port (30_encoding.md R34). -/
abbrev Inputs := Ports Bool

/-- What stands on the port wires in one cycle, before anyone has checked that it is a word (00_scope.md R10). -/
abbrev PortSample := Ports Wire

/-- The rows of opcode_table.json (30_encoding.md R36). -/
inductive Row where
  | sync
  | reset
  | run
  | enable0
  | mask0
  | enable1
  | mask1
  | clearPending0
  | clearPending1
  | consume0
  | consume1
deriving DecidableEq, Repr

/-- The rows in the table's order. -/
def Row.all : List Row :=
  [.sync, .reset, .run, .enable0, .mask0, .enable1, .mask1, .clearPending0, .clearPending1, .consume0, .consume1]

/-- The mnemonic of opcode_table.json. -/
def Row.mnemonic : Row → String
  | .sync => "SYNC"
  | .reset => "RESET"
  | .run => "RUN"
  | .enable0 => "ENABLE0"
  | .mask0 => "MASK0"
  | .enable1 => "ENABLE1"
  | .mask1 => "MASK1"
  | .clearPending0 => "CLEAR_PENDING0"
  | .clearPending1 => "CLEAR_PENDING1"
  | .consume0 => "CONSUME0"
  | .consume1 => "CONSUME1"

/-- A command row of opcode_table.json together with the rest of its word: `btn` is `btn_raw`, `clr` is `clr_pend`, and
a field the row fixes for one channel is given for the other channel only. -/
inductive Instr where
  /-- `SYNC` (R42): every word. -/
  | sync (rst : Bool) (btn en clr consume : Pair Bool)
  /-- `RESET` (R85): `rst = 1`. -/
  | reset (btn en clr consume : Pair Bool)
  /-- `RUN` (R68): `rst = 0`. -/
  | run (btn en clr consume : Pair Bool)
  /-- `ENABLE0` (R49): `rst = 0`, `en[0] = 1`. -/
  | enable0 (btn : Pair Bool) (en1 : Bool) (clr consume : Pair Bool)
  /-- `MASK0` (R49): `rst = 0`, `en[0] = 0`. -/
  | mask0 (btn : Pair Bool) (en1 : Bool) (clr consume : Pair Bool)
  /-- `ENABLE1` (R49): `rst = 0`, `en[1] = 1`. -/
  | enable1 (btn : Pair Bool) (en0 : Bool) (clr consume : Pair Bool)
  /-- `MASK1` (R49): `rst = 0`, `en[1] = 0`. -/
  | mask1 (btn : Pair Bool) (en0 : Bool) (clr consume : Pair Bool)
  /-- `CLEAR_PENDING0` (R47): `rst = 0`, `clr_pend[0] = 1`. -/
  | clearPending0 (btn en : Pair Bool) (clr1 : Bool) (consume : Pair Bool)
  /-- `CLEAR_PENDING1` (R47): `rst = 0`, `clr_pend[1] = 1`. -/
  | clearPending1 (btn en : Pair Bool) (clr0 : Bool) (consume : Pair Bool)
  /-- `CONSUME0` (R61): `rst = 0`, `consume[0] = 1`. -/
  | consume0 (btn en clr : Pair Bool) (consume1 : Bool)
  /-- `CONSUME1` (R61): `rst = 0`, `consume[1] = 1`. -/
  | consume1 (btn en clr : Pair Bool) (consume0 : Bool)
deriving DecidableEq, Repr

/-- The row of an instruction. -/
def Instr.row : Instr → Row
  | .sync _ _ _ _ _ => .sync
  | .reset _ _ _ _ => .reset
  | .run _ _ _ _ => .run
  | .enable0 _ _ _ _ => .enable0
  | .mask0 _ _ _ _ => .mask0
  | .enable1 _ _ _ _ => .enable1
  | .mask1 _ _ _ _ => .mask1
  | .clearPending0 _ _ _ _ => .clearPending0
  | .clearPending1 _ _ _ _ => .clearPending1
  | .consume0 _ _ _ _ => .consume0
  | .consume1 _ _ _ _ => .consume1

end Sys2Proof
end

