-- ==== Sys2Proof/WellFormed.lean ====
section
/-! DEFINITION. The checks on what the block is given: its build-time parameters (00_scope.md R8), the levels on its
port wires (00_scope.md R10), and a number read as a word (30_encoding.md R39). An instruction needs no check: all
512 words are legal (R35), and no term of `Instr` stands for anything but one of them. -/

namespace Sys2Proof

/-- The legal ranges of 00_scope.md R4 and R5; R6 and R7 hold by type. -/
def Params.wellFormed (p : Params) : Bool := decide (1 ≤ p.syncStages) && decide (1 ≤ p.settleCycles)

/-- The legal ranges of 00_scope.md R4, R5 and R7. -/
def BuildRequest.wellFormed (b : BuildRequest) : Bool :=
  decide (1 ≤ b.syncStages) && decide (1 ≤ b.settleCycles) && decide (b.priority ≤ 1)

/-- Every port carries 0 or 1 (00_scope.md R10). -/
def PortSample.wellFormed (p : PortSample) : Bool := Port.all.all fun q => (p.get q).bit.isSome

/-- A number that is a word: it fits in 9 bits (30_encoding.md R39). -/
def isWordNumber (n : Nat) : Bool := decide (n < 512)

/-- Every instruction is well formed: no value of `IW` is reserved, illegal or a hint (30_encoding.md R35, R39). -/
def Instr.wellFormed : Instr → Bool
  | .sync _ _ _ _ _ => true
  | .reset _ _ _ _ => true
  | .run _ _ _ _ => true
  | .enable0 _ _ _ _ => true
  | .mask0 _ _ _ _ => true
  | .enable1 _ _ _ _ => true
  | .mask1 _ _ _ _ => true
  | .clearPending0 _ _ _ _ => true
  | .clearPending1 _ _ _ _ => true
  | .consume0 _ _ _ _ => true
  | .consume1 _ _ _ _ => true

end Sys2Proof
end

