-- ==== Sys2Proof/Decode.lean ====
section
/-! DEFINITION. Decoding and encoding of the cycle input word (30_encoding.md R34 to R39): the field layout, the mask
and match of every row, all rows that apply to a word, the one row `decode` answers with, the refusals by name, and
the encoder. -/

namespace Sys2Proof

/-- The fields of a word (30_encoding.md R34). -/
def Ports.ofWord (w : IW) : Inputs :=
  { rst := w.getLsbD 0
    btnRaw := ⟨w.getLsbD 1, w.getLsbD 2⟩
    en := ⟨w.getLsbD 3, w.getLsbD 4⟩
    clrPend := ⟨w.getLsbD 5, w.getLsbD 6⟩
    consume := ⟨w.getLsbD 7, w.getLsbD 8⟩ }

/-- The word with the given fields, by the numeric formula of 30_encoding.md R34. -/
def Ports.toWord (i : Inputs) : IW :=
  BitVec.ofNat 9 (i.rst.toNat + 2 * i.btnRaw.arm.toNat + 4 * i.btnRaw.react.toNat + 8 * i.en.arm.toNat + 16 * i.en.react.toNat
    + 32 * i.clrPend.arm.toNat + 64 * i.clrPend.react.toNat + 128 * i.consume.arm.toNat + 256 * i.consume.react.toNat)

/-- The mask of a row (30_encoding.md R36). -/
def Row.mask : Row → IW
  | .sync => 0x000
  | .reset => 0x001
  | .run => 0x001
  | .enable0 => 0x009
  | .mask0 => 0x009
  | .enable1 => 0x011
  | .mask1 => 0x011
  | .clearPending0 => 0x021
  | .clearPending1 => 0x041
  | .consume0 => 0x081
  | .consume1 => 0x101

/-- The match of a row (30_encoding.md R36). -/
def Row.pattern : Row → IW
  | .sync => 0x000
  | .reset => 0x001
  | .run => 0x000
  | .enable0 => 0x008
  | .mask0 => 0x000
  | .enable1 => 0x010
  | .mask1 => 0x000
  | .clearPending0 => 0x020
  | .clearPending1 => 0x040
  | .consume0 => 0x080
  | .consume1 => 0x100

/-- A row applies when `(IW & mask) = match` (30_encoding.md R36). -/
def Row.applies (r : Row) (w : IW) : Bool := decide (w &&& r.mask = r.pattern)

/-- The instruction a row reads from decoded fields: the fields its mask leaves open. -/
def Row.read (r : Row) (i : Inputs) : Instr :=
  match r with
  | .sync => .sync i.rst i.btnRaw i.en i.clrPend i.consume
  | .reset => .reset i.btnRaw i.en i.clrPend i.consume
  | .run => .run i.btnRaw i.en i.clrPend i.consume
  | .enable0 => .enable0 i.btnRaw i.en.react i.clrPend i.consume
  | .mask0 => .mask0 i.btnRaw i.en.react i.clrPend i.consume
  | .enable1 => .enable1 i.btnRaw i.en.arm i.clrPend i.consume
  | .mask1 => .mask1 i.btnRaw i.en.arm i.clrPend i.consume
  | .clearPending0 => .clearPending0 i.btnRaw i.en i.clrPend.react i.consume
  | .clearPending1 => .clearPending1 i.btnRaw i.en i.clrPend.arm i.consume
  | .consume0 => .consume0 i.btnRaw i.en i.clrPend i.consume.react
  | .consume1 => .consume1 i.btnRaw i.en i.clrPend i.consume.arm

/-- Every instruction a word holds: one for each row that applies (30_encoding.md R36: 'Every row that applies
acts'). -/
def decodeAll (w : IW) : List Instr := (Row.all.filter fun r => r.applies w).map fun r => r.read (Ports.ofWord w)

/-- The order in which `decodeWord` looks for a row that applies: a row that sets a command bit before one that sets
none. DEDUCED (log 6): the spec lets every row act; all rows that apply to a word have the same meaning, so which one
is answered makes no difference to the cycle. -/
def Row.bySpecificity : List Row :=
  [.reset, .consume1, .consume0, .clearPending1, .clearPending0, .enable1, .enable0, .run, .mask1, .mask0]

/-- The one instruction answered for a word: its first row in `Row.bySpecificity` that applies (log 6). -/
def decodeWord (w : IW) : Instr :=
  ((Row.bySpecificity.find? fun r => r.applies w).getD .sync).read (Ports.ofWord w)

/-- Why something is not a word (30_encoding.md R39). -/
inductive DecodeError where
  /-- a port carries neither 0 nor 1 (00_scope.md R10); the first such port in the word's order -/
  | undefinedLevel (port : Port)
  /-- a number that does not fit in the 9 bits of a word -/
  | notNineBits (number : Nat)
deriving DecidableEq, Repr

/-- The port wires that carry the given bits. -/
def Ports.drive (i : Inputs) : PortSample := .ofFn fun q => Wire.ofBit (i.get q)

/-- The bits on the port wires, where every wire carries one (00_scope.md R10). -/
def Ports.resolve (p : PortSample) : Except DecodeError Inputs :=
  match Port.all.find? fun q => (p.get q).bit.isNone with
  | some q => .error (.undefinedLevel q)
  | none => .ok (.ofFn fun q => (p.get q).bit.getD false)

/-- Decode what stands on the ports. -/
def decode (p : PortSample) : Except DecodeError Instr :=
  match p.resolve with
  | .error e => .error e
  | .ok i => .ok (decodeWord i.toWord)

/-- The port wires for a number: a word is 9 bits (30_encoding.md R39), and no port takes a tenth. -/
def sampleOfNumber (n : Nat) : Except DecodeError PortSample :=
  if isWordNumber n then .ok (Ports.ofWord (BitVec.ofNat 9 n)).drive else .error (.notNineBits n)

/-- The ports' values for an instruction: its row's fixed bits and its own fields. -/
def Instr.inputs : Instr → Inputs
  | .sync r b e c k => { rst := r, btnRaw := b, en := e, clrPend := c, consume := k }
  | .reset b e c k => { rst := true, btnRaw := b, en := e, clrPend := c, consume := k }
  | .run b e c k => { rst := false, btnRaw := b, en := e, clrPend := c, consume := k }
  | .enable0 b e1 c k => { rst := false, btnRaw := b, en := ⟨true, e1⟩, clrPend := c, consume := k }
  | .mask0 b e1 c k => { rst := false, btnRaw := b, en := ⟨false, e1⟩, clrPend := c, consume := k }
  | .enable1 b e0 c k => { rst := false, btnRaw := b, en := ⟨e0, true⟩, clrPend := c, consume := k }
  | .mask1 b e0 c k => { rst := false, btnRaw := b, en := ⟨e0, false⟩, clrPend := c, consume := k }
  | .clearPending0 b e c1 k => { rst := false, btnRaw := b, en := e, clrPend := ⟨true, c1⟩, consume := k }
  | .clearPending1 b e c0 k => { rst := false, btnRaw := b, en := e, clrPend := ⟨c0, true⟩, consume := k }
  | .consume0 b e c k1 => { rst := false, btnRaw := b, en := e, clrPend := c, consume := ⟨true, k1⟩ }
  | .consume1 b e c k0 => { rst := false, btnRaw := b, en := e, clrPend := c, consume := ⟨k0, true⟩ }

/-- The word of an instruction (30_encoding.md R34). -/
def encode (i : Instr) : IW := i.inputs.toWord

/-- The host's view: the instruction decoded from the ports that carry the number `w`, of which `nbits` bits are
given and the rest are 0 (log 16). -/
def decodeTableWord (nbits w : Nat) : Option Instr :=
  match sampleOfNumber (w % 2 ^ nbits) with
  | .error _ => none
  | .ok p =>
    match decode p with
    | .error _ => none
    | .ok i => some i

end Sys2Proof
end

