-- ==== Sys2Proof/Machine/State.lean ====
section
/-! DEFINITION. The architectural state (10_state.md), the reasons a step can stop, and the state after reset. -/

namespace Sys2Proof.Machine

/-- The settle-engine registers (10_state.md R17). Their set depends on `SHARED_SETTLE`, so the constructor IS that
parameter (log 3). A counter is held as a natural number, as R18 allows (log 7). -/
inductive Engine where
  /-- `SHARED_SETTLE = false`: `cnt[0]` and `cnt[1]` -/
  | independent (cnt : Pair Nat)
  /-- `SHARED_SETTLE = true`: one `cnt`, and the channel the running or last window served -/
  | shared (cnt : Nat) (owner : Channel)
deriving DecidableEq, Repr

/-- The state of the block, with what its environment is about to drive. -/
structure State where
  /-- parameter `SYNC_STAGES` (00_scope.md R4); no step changes it -/
  syncStages : Nat
  /-- parameter `SETTLE_CYCLES` (00_scope.md R5); no step changes it -/
  settleCycles : Nat
  /-- parameter `PRIORITY` (00_scope.md R7); no step changes it -/
  priority : Channel
  /-- `sync[c][0 .. SYNC_STAGES-1]`, stage 0 first (10_state.md R13) -/
  sync : Pair (List Bool)
  /-- `prev[c]` (10_state.md R14) -/
  prev : Pair Bool
  /-- `pend[c]` (10_state.md R15) -/
  pend : Pair Bool
  /-- `flag[c]` (10_state.md R16) -/
  flag : Pair Bool
  /-- the settle-engine registers (10_state.md R17) -/
  engine : Engine
  /-- the MODEL's own field (log 1): what the environment drives in the coming cycles, the current one first -/
  inputs : List PortSample
  /-- the MODEL's own field (log 12): the t of `σ_t` (00_scope.md R9) -/
  cycle : Nat
deriving DecidableEq, Repr

/-- Whether the settle engine is shared: the parameter `SHARED_SETTLE` (00_scope.md R6). -/
def Engine.isShared : Engine → Bool
  | .independent _ => false
  | .shared _ _ => true

/-- The build-time parameters of the block in this state. -/
def State.params (s : State) : Params :=
  { syncStages := s.syncStages, settleCycles := s.settleCycles, sharedSettle := s.engine.isShared, priority := s.priority }

/-- The block raises no fault, exception or error indication (60_exceptions.md R72): there is no reason to name. -/
inductive Fault
deriving DecidableEq, Repr

/-- The reasons the MODEL refuses to go on. -/
inductive Refusal where
  /-- an instruction without a meaning yet; no arm answers it. Safe. -/
  | notModelled (mnemonic : String)
  /-- raised by `build` and by `step` on parameters outside their legal ranges: 'refused when the block is built'
  (00_scope.md R8). Safe: the spec has no such block. -/
  | illegalConfiguration
  /-- raised by `step` where the ports do not carry a word: 'A port value that is neither 0 nor 1 is not a word; a model
  refuses it' (30_encoding.md R39). Safe. -/
  | notAWord (reason : DecodeError)
deriving DecidableEq, Repr

/-- The state after a complete reset of a block with parameters p, both lines low: 10_state.md R22, and for the
synchroniser, which is not reset (R24), the zeros that low lines leave in it. -/
def State.afterReset (p : Params) : State :=
  { syncStages := p.syncStages
    settleCycles := p.settleCycles
    priority := p.priority
    sync := ⟨List.replicate p.syncStages false, List.replicate p.syncStages false⟩
    prev := ⟨true, true⟩
    pend := ⟨false, false⟩
    flag := ⟨false, false⟩
    engine := if p.sharedSettle then .shared 0 .arm else .independent ⟨0, 0⟩
    inputs := []
    cycle := 0 }

/-- The block right after reset, with the default parameters of 00_scope.md R4, R6 and R7. DESIGN CHOICE (unsafe):
`SETTLE_CYCLES` (log 4) and the synchroniser's contents (log 5). -/
def State.reset : State :=
  State.afterReset { syncStages := 2, settleCycles := Config.resetSettleCycles, sharedSettle := false, priority := .arm }

end Sys2Proof.Machine
end

