-- ==== Sys2Proof/Machine/Operands.lean ====
section
/-! DEFINITION. What the rules read in a cycle: the derived signals of 10_state.md R20 that need no engine, and the
word on the ports. -/

namespace Sys2Proof.Machine

/-- The last stage of a synchroniser of the given length (40_edge_capture.md R43). The value outside the list is not
reachable (log 10). -/
def lastStage (stages : Nat) (sync : List Bool) : Bool := sync.getD (stages - 1) false

/-- `s[c]`, the synchronised level (40_edge_capture.md R43). -/
def level (s : State) (c : Channel) : Bool := lastStage s.syncStages (s.sync.get c)

/-- `rise[c] = s[c] ∧ ¬prev[c]`, a raw edge (40_edge_capture.md R45). -/
def rise (s : State) (c : Channel) : Bool := level s c && !s.prev.get c

/-- `cand[c] = pend[c] ∧ en[c] ∧ ¬clr_pend[c]` (41_settle_window.md R50). -/
def cand (ι : Inputs) (s : State) (c : Channel) : Bool := s.pend.get c && ι.en.get c && !ι.clrPend.get c

/-- What stands on the ports in this cycle: the first listed sample; where none is listed, the word the environment is
free to choose (log 1, log 2). -/
def portsNow (s : State) : PortSample :=
  match s.inputs with
  | p :: _ => p
  | [] => (Ports.ofWord (Config.environment s.cycle)).drive

/-- The clock edge as the environment sees it: the next sample comes up, and t becomes t + 1 (00_scope.md R9). -/
def nextCycle (s : State) : State := { s with inputs := s.inputs.tail, cycle := s.cycle + 1 }

end Sys2Proof.Machine
end

