-- ==== Sys2Proof/Machine/Flags.lean ====
section
/-! DEFINITION. The two latches of a channel (40_edge_capture.md R46, 42_event_flag.md R60) and the output ports
(10_state.md R12, 42_event_flag.md R63). In both latches set dominates clear. -/

namespace Sys2Proof.Machine

/-- `CAPTURE` (40_edge_capture.md R46): `pend'[c]`. -/
def nextPend (rise pend clr start : Bool) : Bool := rise || (pend && !clr && !start)

/-- `flag'[c]` (42_event_flag.md R60). -/
def nextFlag (accept flag consume : Bool) : Bool := accept || (flag && !consume)

/-- `busy[c]`: a window for channel c is running (41_settle_window.md R58). -/
def busy (s : State) (c : Channel) : Bool :=
  match s.engine with
  | .independent cnt => decide (cnt.get c ≠ 0)
  | .shared cnt owner => decide (cnt ≠ 0) && decide (owner = c)

/-- A two-bit port vector: bit c belongs to channel c, bit 0 is the least significant (00_scope.md R10). -/
def portVector (p : Pair Bool) : BitVec 2 := BitVec.ofNat 2 (p.arm.toNat + 2 * p.react.toNat)

/-- The output ports of a state (10_state.md R12): functions of the state alone (42_event_flag.md R63). -/
structure Outputs where
  edgeFlag : BitVec 2
  edgePending : BitVec 2
  busy : BitVec 2
deriving DecidableEq, Repr

/-- What the output ports carry (42_event_flag.md R63). -/
def outputs (s : State) : Outputs :=
  { edgeFlag := portVector s.flag, edgePending := portVector s.pend, busy := portVector (.ofFn (busy s)) }

end Sys2Proof.Machine
end

