-- ==== Sys2Proof/Machine/Ops.lean ====
section
/-! DEFINITION. The named operations of a cycle: the synchroniser's shift, the settle engine with the internal
operations of 30_encoding.md R37, the composed cycle (43_cycle_step.md R68) and the reset cycle
(70_reset_and_hazards.md R85), and building a block (00_scope.md R8).

TAKING AN EXCEPTION: the block takes none (60_exceptions.md R72). The entry and the return of the source's handler are
the start and the re-sample of a window (R78, R79): `EngineOp.start`, and `EngineOp.accept` or `EngineOp.reject`.

Every function here reads the old state and the input word only (20_memory.md R29). -/

namespace Sys2Proof.Machine

/-- The synchroniser's shift (40_edge_capture.md R42): stage 0 takes the line, stage k takes stage k-1. -/
def shift (stages : Nat) (line : Bool) (sync : List Bool) : List Bool := (line :: sync).take stages

/-- Both synchronisers after a cycle (40_edge_capture.md R42). -/
def nextSync (ι : Inputs) (s : State) : Pair (List Bool) :=
  .ofFn fun c => shift s.syncStages (ι.btnRaw.get c) (s.sync.get c)

/-- What a settle engine does in a `RUN` cycle (30_encoding.md R37). -/
inductive EngineOp where
  | start
  | count
  | accept
  | reject
  | idle
deriving DecidableEq, Repr

/-- The operation the state selects (30_encoding.md R37): by the counter, then by the candidate or the level of the
channel the engine serves (41_settle_window.md R51 to R54, R56, R57). -/
def engineOp (cnt : Nat) (candidate level : Bool) : EngineOp :=
  if cnt = 0 then (if candidate then .start else .idle)
  else if cnt = 1 then (if level then .accept else .reject)
  else .count

/-- The counter after an operation: a start loads `SETTLE_CYCLES` (R51), a count takes one off (R52), a re-sample and an
idle cycle leave 0 (R53, R54). -/
def nextCount (settle cnt : Nat) : EngineOp → Nat
  | .start => settle
  | .count => cnt - 1
  | .accept => 0
  | .reject => 0
  | .idle => 0

/-- The channel a shared engine would start a window for: `PRIORITY` if it is a candidate, else the other
(41_settle_window.md R56). -/
def winner (ι : Inputs) (s : State) : Channel := if cand ι s s.priority then s.priority else s.priority.other

/-- The channel a shared engine serves in this cycle: an idle engine the winner (R56), a running one its owner (R57). -/
def served (ι : Inputs) (s : State) (cnt : Nat) (owner : Channel) : Channel := if cnt = 0 then winner ι s else owner

/-- The operation of channel c's engine in a `RUN` cycle. In shared mode a channel that is not served has none. -/
def channelOp (ι : Inputs) (s : State) (c : Channel) : Option EngineOp :=
  match s.engine with
  | .independent cnt => some (engineOp (cnt.get c) (cand ι s c) (level s c))
  | .shared cnt owner =>
    if c = served ι s cnt owner then some (engineOp cnt (cand ι s c) (level s c)) else none

/-- `start[c]` (41_settle_window.md R51, R56). -/
def start (ι : Inputs) (s : State) (c : Channel) : Bool := decide (channelOp ι s c = some .start)

/-- `accept[c]` (41_settle_window.md R53, R57). -/
def accept (ι : Inputs) (s : State) (c : Channel) : Bool := decide (channelOp ι s c = some .accept)

/-- The settle-engine registers after a `RUN` cycle (41_settle_window.md R51 to R54, R56, R57). -/
def nextEngine (ι : Inputs) (s : State) : Engine :=
  match s.engine with
  | .independent cnt =>
    .independent (.ofFn fun c => nextCount s.settleCycles (cnt.get c) (engineOp (cnt.get c) (cand ι s c) (level s c)))
  | .shared cnt owner =>
    let w := served ι s cnt owner
    let op := engineOp cnt (cand ι s w) (level s w)
    .shared (nextCount s.settleCycles cnt op) (if op = .start then w else owner)

/-- One cycle with `rst = 0` (43_cycle_step.md R68). -/
def runCycle (ι : Inputs) (s : State) : State :=
  { s with
    sync := nextSync ι s
    prev := .ofFn (level s)
    pend := .ofFn fun c => nextPend (rise s c) (s.pend.get c) (ι.clrPend.get c) (start ι s c)
    flag := .ofFn fun c => nextFlag (accept ι s c) (s.flag.get c) (ι.consume.get c)
    engine := nextEngine ι s }

/-- The settle-engine registers after a reset cycle (70_reset_and_hazards.md R85): every counter 0, `owner` 0. -/
def idleEngine : Engine → Engine
  | .independent _ => .independent ⟨0, 0⟩
  | .shared _ _ => .shared 0 .arm

/-- One cycle with `rst = 1` (70_reset_and_hazards.md R85): the synchroniser shifts, everything else takes its reset
value. -/
def resetCycle (ι : Inputs) (s : State) : State :=
  { s with
    sync := nextSync ι s
    prev := ⟨true, true⟩
    pend := ⟨false, false⟩
    flag := ⟨false, false⟩
    engine := idleEngine s.engine }

/-- `SYNC_STAGES` stages drawn at power-up (10_state.md R23, R13). -/
def powerUpStages (stages draw : Nat) : List Bool := List.ofFn fun k : Fin stages => draw.testBit k

/-- A counter drawn at power-up: any value of `CNT_W` bits (10_state.md R23, R18). -/
def powerUpCounter (settle draw : Nat) : Nat := draw % 2 ^ cntW settle

/-- The state before the first reset: every register as this power-up draws it (10_state.md R23; log 11). -/
def powerUp (p : Params) (d : PowerUpDraw) : State :=
  { syncStages := p.syncStages
    settleCycles := p.settleCycles
    priority := p.priority
    sync := .ofFn fun c => powerUpStages p.syncStages (d.stages.get c)
    prev := d.prev
    pend := d.pend
    flag := d.flag
    engine :=
      if p.sharedSettle then .shared (powerUpCounter p.settleCycles d.count.arm) d.owner
      else .independent (.ofFn fun c => powerUpCounter p.settleCycles (d.count.get c))
    inputs := []
    cycle := 0 }

/-- A loss of power and the power-up after it: no register survives, and the state is unspecified until a reset
(60_exceptions.md R84). The draw is this power-up's own (log 11): no power-up repeats another's, or differs from it, by
any choice of the model. -/
def losePower (s : State) (d : PowerUpDraw) : State := { powerUp s.params d with inputs := s.inputs, cycle := s.cycle }

/-- Build a block (00_scope.md R8): illegal parameters are refused, legal ones give a block in the state its first power-up
draws. -/
def build (b : BuildRequest) (d : PowerUpDraw) : Except Refusal State :=
  if b.wellFormed then
    .ok (powerUp { syncStages := b.syncStages, settleCycles := b.settleCycles, sharedSettle := b.sharedSettle,
                   priority := if b.priority = 0 then .arm else .react } d)
  else .error .illegalConfiguration

end Sys2Proof.Machine
end

