-- ==== Sys2Proof/Machine/Capture.lean ====
section
/-! DEFINITION. The meanings of the edge capture family (40_edge_capture.md): SYNC, CLEAR_PENDING0, CLEAR_PENDING1.
A meaning is the whole cycle of the word its instruction stands for (log 6). -/

namespace Sys2Proof.Machine

/-- `SYNC` (40_edge_capture.md R42): 'It acts in every cycle, including cycles with `rst = 1`'. The rest of the cycle is
the reset's (R85) or the run's (R68), as `rst` says. -/
def execSync (rst : Bool) (btn en clr consume : Pair Bool) (s : State) : Host.Outcome State Fault Refusal :=
  let ι : Inputs := { rst := rst, btnRaw := btn, en := en, clrPend := clr, consume := consume }
  .next (if rst then resetCycle ι s else runCycle ι s)

/-- `CLEAR_PENDING0` (40_edge_capture.md R47): a run cycle with `clr_pend[0] = 1`. -/
def execClearPending0 (btn en : Pair Bool) (clr1 : Bool) (consume : Pair Bool) (s : State) :
    Host.Outcome State Fault Refusal :=
  .next (runCycle { rst := false, btnRaw := btn, en := en, clrPend := ⟨true, clr1⟩, consume := consume } s)

/-- `CLEAR_PENDING1` (40_edge_capture.md R47): a run cycle with `clr_pend[1] = 1`. -/
def execClearPending1 (btn en : Pair Bool) (clr0 : Bool) (consume : Pair Bool) (s : State) :
    Host.Outcome State Fault Refusal :=
  .next (runCycle { rst := false, btnRaw := btn, en := en, clrPend := ⟨clr0, true⟩, consume := consume } s)

end Sys2Proof.Machine
end

