-- ==== Sys2Proof/Machine/Cycle.lean ====
section
/-! DEFINITION. The meanings of the two rows that decide a cycle (30_encoding.md R35): RUN (43_cycle_step.md R68) and
RESET (70_reset_and_hazards.md R85). -/

namespace Sys2Proof.Machine

/-- `RUN` (43_cycle_step.md R68): one cycle with `rst = 0`. -/
def execRun (btn en clr consume : Pair Bool) (s : State) : Host.Outcome State Fault Refusal :=
  .next (runCycle { rst := false, btnRaw := btn, en := en, clrPend := clr, consume := consume } s)

/-- `RESET` (70_reset_and_hazards.md R85): one cycle with `rst = 1`; `en`, `clr_pend` and `consume` are ignored. -/
def execReset (btn en clr consume : Pair Bool) (s : State) : Host.Outcome State Fault Refusal :=
  .next (resetCycle { rst := true, btnRaw := btn, en := en, clrPend := clr, consume := consume } s)

end Sys2Proof.Machine
end

