-- ==== Sys2Proof/Machine/EventFlag.lean ====
section
/-! DEFINITION. The meanings of the event flag family (42_event_flag.md R61): CONSUME0, CONSUME1. A meaning is the whole
cycle of the word its instruction stands for (log 6). -/

namespace Sys2Proof.Machine

/-- `CONSUME0` (42_event_flag.md R61): a run cycle with `consume[0] = 1`. -/
def execConsume0 (btn en clr : Pair Bool) (consume1 : Bool) (s : State) : Host.Outcome State Fault Refusal :=
  .next (runCycle { rst := false, btnRaw := btn, en := en, clrPend := clr, consume := ⟨true, consume1⟩ } s)

/-- `CONSUME1` (42_event_flag.md R61): a run cycle with `consume[1] = 1`. -/
def execConsume1 (btn en clr : Pair Bool) (consume0 : Bool) (s : State) : Host.Outcome State Fault Refusal :=
  .next (runCycle { rst := false, btnRaw := btn, en := en, clrPend := clr, consume := ⟨consume0, true⟩ } s)

end Sys2Proof.Machine
end

