-- ==== Sys2Proof/Machine/Window.lean ====
section
/-! DEFINITION. The meanings of the settle window family (41_settle_window.md R49): ENABLE0, MASK0, ENABLE1, MASK1.
A meaning is the whole cycle of the word its instruction stands for (log 6). -/

namespace Sys2Proof.Machine

/-- `ENABLE0` (41_settle_window.md R49): a run cycle with `en[0] = 1`. -/
def execEnable0 (btn : Pair Bool) (en1 : Bool) (clr consume : Pair Bool) (s : State) : Host.Outcome State Fault Refusal :=
  .next (runCycle { rst := false, btnRaw := btn, en := ⟨true, en1⟩, clrPend := clr, consume := consume } s)

/-- `MASK0` (41_settle_window.md R49): a run cycle with `en[0] = 0`. -/
def execMask0 (btn : Pair Bool) (en1 : Bool) (clr consume : Pair Bool) (s : State) : Host.Outcome State Fault Refusal :=
  .next (runCycle { rst := false, btnRaw := btn, en := ⟨false, en1⟩, clrPend := clr, consume := consume } s)

/-- `ENABLE1` (41_settle_window.md R49): a run cycle with `en[1] = 1`. -/
def execEnable1 (btn : Pair Bool) (en0 : Bool) (clr consume : Pair Bool) (s : State) : Host.Outcome State Fault Refusal :=
  .next (runCycle { rst := false, btnRaw := btn, en := ⟨en0, true⟩, clrPend := clr, consume := consume } s)

/-- `MASK1` (41_settle_window.md R49): a run cycle with `en[1] = 0`. -/
def execMask1 (btn : Pair Bool) (en0 : Bool) (clr consume : Pair Bool) (s : State) : Host.Outcome State Fault Refusal :=
  .next (runCycle { rst := false, btnRaw := btn, en := ⟨en0, false⟩, clrPend := clr, consume := consume } s)

end Sys2Proof.Machine
end

