-- ==== Sys2Proof/Machine/Dispatch.lean ====
section
/-! DEFINITION. The meaning of every instruction: one arm per constructor. -/

namespace Sys2Proof.Machine

def exec (i : Instr) (s : State) : Host.Outcome State Fault Refusal :=
  match i with
  | .sync rst btn en clr consume => Sys2Proof.Machine.execSync rst btn en clr consume s
  | .reset btn en clr consume => Sys2Proof.Machine.execReset btn en clr consume s
  | .run btn en clr consume => Sys2Proof.Machine.execRun btn en clr consume s
  | .enable0 btn en1 clr consume => Sys2Proof.Machine.execEnable0 btn en1 clr consume s
  | .mask0 btn en1 clr consume => Sys2Proof.Machine.execMask0 btn en1 clr consume s
  | .enable1 btn en0 clr consume => Sys2Proof.Machine.execEnable1 btn en0 clr consume s
  | .mask1 btn en0 clr consume => Sys2Proof.Machine.execMask1 btn en0 clr consume s
  | .clearPending0 btn en clr1 consume => Sys2Proof.Machine.execClearPending0 btn en clr1 consume s
  | .clearPending1 btn en clr0 consume => Sys2Proof.Machine.execClearPending1 btn en clr0 consume s
  | .consume0 btn en clr consume1 => Sys2Proof.Machine.execConsume0 btn en clr consume1 s
  | .consume1 btn en clr consume0 => Sys2Proof.Machine.execConsume1 btn en clr consume0 s

end Sys2Proof.Machine
end

