-- ==== Sys2Proof/Machine/Step.lean ====
section
/-! DEFINITION. One step: one clock edge (00_scope.md R9, 43_cycle_step.md R71). -/

namespace Sys2Proof.Machine

/-- One cycle: read the word on the ports, run what it selects, move on to the next cycle. A block with illegal
parameters is never run (00_scope.md R8); what is no word is refused (30_encoding.md R39). -/
def step (s : State) : Host.Outcome State Fault Refusal :=
  if s.params.wellFormed then
    match decode (portsNow s) with
    | .error e => .refused (.notAWord e)
    | .ok i => exec i (nextCycle s)
  else .refused .illegalConfiguration

/-- s with the word `w` (of which `nbits` bits are given, the rest 0) on the ports in the current cycle (log 1, log 16). -/
def State.withFetchWord (s : State) (nbits w : Nat) : State :=
  { s with inputs := (Ports.ofWord (BitVec.ofNat 9 (w % 2 ^ nbits))).drive :: s.inputs.tail }

end Sys2Proof.Machine
end

