-- ==== Sys2Proof/Machine/Trace.lean ====
section
/-! DEFINITION. The textual form of an input trace and its pseudo-commands (30_encoding.md R40, R41; log 17). They
name words and add no behaviour. -/

namespace Sys2Proof.Machine

/-- The field names of the trace syntax (30_encoding.md R40). -/
inductive TraceField where
  | reset
  | button (c : Channel)
  | enable (c : Channel)
  | clear (c : Channel)
  | consume (c : Channel)
deriving DecidableEq, Repr

/-- The bit of `IW` a field names (30_encoding.md R34: button bit `1+c`, enable bit `3+c`, clear bit `5+c`, consume bit
`7+c`). -/
def TraceField.bit : TraceField → Nat
  | .reset => 0
  | .button c => 1 + c.index
  | .enable c => 3 + c.index
  | .clear c => 5 + c.index
  | .consume c => 7 + c.index

/-- The word with exactly these fields set to 1 (30_encoding.md R40). -/
def wordOfFields (fs : List TraceField) : IW := fs.foldr (fun f w => BitVec.ofNat 9 (2 ^ f.bit) ||| w) 0

/-- The pseudo-commands (30_encoding.md R41). -/
inductive PseudoCommand where
  | resetSeq
  | idleWord
  | unmask1
  | wait (word : IW) (n : Nat)
deriving DecidableEq, Repr

/-- The expansion of a pseudo-command, for a block with `SYNC_STAGES` stages (30_encoding.md R41). -/
def PseudoCommand.expand (syncStages : Nat) : PseudoCommand → List IW
  | .resetSeq => List.replicate syncStages (wordOfFields [.reset])
  | .idleWord => [wordOfFields [.enable .arm]]
  | .unmask1 => [wordOfFields [.enable .arm, .enable .react, .clear .react, .consume .react]]
  | .wait w n => List.replicate n w

/-- The field a name stands for. -/
def parseField (s : List Char) : Option TraceField :=
  if s = ['R'] then some .reset
  else if s = ['B', '0'] then some (.button .arm)
  else if s = ['B', '1'] then some (.button .react)
  else if s = ['E', '0'] then some (.enable .arm)
  else if s = ['E', '1'] then some (.enable .react)
  else if s = ['C', '0'] then some (.clear .arm)
  else if s = ['C', '1'] then some (.clear .react)
  else if s = ['K', '0'] then some (.consume .arm)
  else if s = ['K', '1'] then some (.consume .react)
  else none

/-- The value of a digit in the given base, up to 16. -/
def digitValue (base : Nat) (ch : Char) : Option Nat :=
  let n := ch.toNat
  let v := if 48 ≤ n ∧ n ≤ 57 then n - 48 else if 65 ≤ n ∧ n ≤ 70 then n - 55 else if 97 ≤ n ∧ n ≤ 102 then n - 87 else 99
  if v < base then some v else none

/-- The digits' value, read from the most significant one; `acc` is the value of those already read. -/
def digitsFrom (base : Nat) : Nat → List Char → Option Nat
  | acc, [] => some acc
  | acc, ch :: rest =>
    match digitValue base ch with
    | none => none
    | some d => digitsFrom base (acc * base + d) rest

/-- A number of at least one digit. -/
def parseNumber (base : Nat) (s : List Char) : Option Nat := if s = [] then none else digitsFrom base 0 s

/-- The pieces of a text between the separators. -/
def splitAtEvery (sep : Char) : List Char → List (List Char)
  | [] => [[]]
  | ch :: rest =>
    if ch = sep then [] :: splitAtEvery sep rest
    else
      match splitAtEvery sep rest with
      | [] => [[ch]]
      | piece :: pieces => (ch :: piece) :: pieces

/-- Every piece parsed, or nothing. -/
def parseAll {α : Type} (parse : List Char → Option α) : List (List Char) → Option (List α)
  | [] => some []
  | piece :: pieces =>
    match parse piece, parseAll parse pieces with
    | some a, some as => some (a :: as)
    | _, _ => none

/-- `word` of the grammar (30_encoding.md R40), which has no name of a pseudo-command (`parseCommandLine` reads those; log 17).
A number that is no 9-bit word is refused (R39). -/
def parseWord (s : List Char) : Option IW :=
  if s = ['N', 'O', 'P'] then some 0
  else
    match s with
    | '0' :: 'x' :: digits =>
      match parseNumber 16 digits with
      | some n => if isWordNumber n then some (BitVec.ofNat 9 n) else none
      | none => none
    | _ =>
      match parseAll parseField (splitAtEvery '+' s) with
      | some fs => some (wordOfFields fs)
      | none => none

/-- `line` of the grammar: a word and how often it is applied, once if no count stands (30_encoding.md R40). -/
def parseLine (s : List Char) : Option (List IW) :=
  match splitAtEvery ' ' s with
  | [w] =>
    match parseWord w with
    | some w => some [w]
    | none => none
  | [w, 'x' :: count] =>
    match parseWord w, parseNumber 10 count with
    | some w, some n => some (List.replicate n w)
    | _, _ => none
  | _ => none

/-- A trace: one line after the other, applied in consecutive cycles (30_encoding.md R40). -/
def parseTrace (s : List Char) : Option (List IW) :=
  match parseAll parseLine (splitAtEvery '\n' s) with
  | some lines => some lines.flatten
  | none => none

/-- A pseudo-command by its name (30_encoding.md R41): `RESETSEQ`, `IDLEWORD`, `UNMASK1`, or `WAIT`, a word and a decimal
number, one space between them. -/
def parsePseudoCommand (s : List Char) : Option PseudoCommand :=
  match splitAtEvery ' ' s with
  | [['R', 'E', 'S', 'E', 'T', 'S', 'E', 'Q']] => some .resetSeq
  | [['I', 'D', 'L', 'E', 'W', 'O', 'R', 'D']] => some .idleWord
  | [['U', 'N', 'M', 'A', 'S', 'K', '1']] => some .unmask1
  | [['W', 'A', 'I', 'T'], w, n] =>
    match parseWord w, parseNumber 10 n with
    | some w, some n => some (.wait w n)
    | _, _ => none
  | _ => none

/-- A line that may also be a pseudo-command. DESIGN CHOICE (safe, log 17): the grammar of 30_encoding.md R40 has no
pseudo-command, while R41 calls them pseudo-commands of the trace syntax; here one stands as a whole line, without a count,
and `parseLine` reads the grammar alone. -/
def parseCommandLine (syncStages : Nat) (s : List Char) : Option (List IW) :=
  match parseLine s with
  | some ws => some ws
  | none => (parsePseudoCommand s).map (PseudoCommand.expand syncStages)

/-- A trace whose lines may also be pseudo-commands (30_encoding.md R40, R41; log 17), for a block with `SYNC_STAGES` stages. -/
def parseCommandTrace (syncStages : Nat) (s : List Char) : Option (List IW) :=
  (parseAll (parseCommandLine syncStages) (splitAtEvery '\n' s)).map List.flatten

/-- s with a trace on its ports, the first word in the current cycle (30_encoding.md R40; log 1). -/
def withTrace (s : State) (trace : List IW) : State := { s with inputs := trace.map fun w => (Ports.ofWord w).drive }

end Sys2Proof.Machine
end

