-- ==== Sys2Proof/Safety.lean ====
section
/-! DEFINITION. The terms the claims use: the well-formed states (10_state.md R19), a run (43_cycle_step.md R71), a complete
reset (70_reset_and_hazards.md R86), and the consumer's duties as predicates on what it drives (R89 to R93). -/

namespace Sys2Proof.Machine

/-- Every settle counter holds at most n (10_state.md R19). -/
def Engine.countsAtMost (n : Nat) : Engine → Bool
  | .independent cnt => decide (cnt.arm ≤ n) && decide (cnt.react ≤ n)
  | .shared cnt _ => decide (cnt ≤ n)

/-- A well-formed state: legal parameters (00_scope.md R8), `SYNC_STAGES` stages in each synchroniser (10_state.md R13), and
every settle counter in 0 .. `SETTLE_CYCLES` (R19). -/
def State.wf (s : State) : Bool :=
  s.params.wellFormed && decide (s.sync.arm.length = s.syncStages) && decide (s.sync.react.length = s.syncStages)
    && s.engine.countsAtMost s.settleCycles

/-- The counter of the window that runs for channel c, 0 where none runs (10_state.md R17, 41_settle_window.md R58). -/
def windowCount (s : State) (c : Channel) : Nat :=
  match s.engine with
  | .independent cnt => cnt.get c
  | .shared cnt owner => if owner = c then cnt else 0

/-- A window for channel c starts in a run cycle with the word `ι`: its engine is idle and it is a candidate
(41_settle_window.md R50, R51); in shared mode it also is `PRIORITY`, or the `PRIORITY` channel is no candidate (R56). -/
def startsWindow (ι : Inputs) (s : State) (c : Channel) : Bool :=
  let candidate (d : Channel) := s.pend.get d && ι.en.get d && !ι.clrPend.get d
  match s.engine with
  | .independent cnt => decide (cnt.get c = 0) && candidate c
  | .shared cnt _ => decide (cnt = 0) && candidate c && (decide (c = s.priority) || !candidate s.priority)

/-- A re-sample for channel c reads 1 in a run cycle: its window's counter is 1 and its level is 1 (41_settle_window.md R53,
R57). -/
def resampleReads (s : State) (c : Channel) : Bool := decide (windowCount s c = 1) && level s c

/-- Both synchronisers shifted once (40_edge_capture.md R42): stage 0 holds the line, stage k what stage k-1 held, and there
are `SYNC_STAGES` stages. -/
def SyncShifted (btn : Pair Bool) (s t : State) : Prop :=
  ∀ (c : Channel) (k : Nat),
    (t.sync.get c)[k]? = if k < s.syncStages then (if k = 0 then some (btn.get c) else (s.sync.get c)[k - 1]?) else none

/-- The parameters of a block and what its environment has listed are as they were. -/
def Unchanged (s t : State) : Prop := t.params = s.params ∧ t.inputs = s.inputs ∧ t.cycle = s.cycle

/-- t is the state after one run cycle from s with the word `ι`: the pseudocode of 43_cycle_step.md R68, register by register. -/
def IsRunCycle (ι : Inputs) (s t : State) : Prop :=
  Unchanged s t ∧ SyncShifted ι.btnRaw s t ∧ (∀ c, t.prev.get c = level s c) ∧
  ∃ st ac cd : Channel → Bool,
    (∀ c, cd c = (s.pend.get c && ι.en.get c && !ι.clrPend.get c)) ∧
    (∀ c, t.pend.get c = ((level s c && !s.prev.get c) || (s.pend.get c && !ι.clrPend.get c && !st c))) ∧
    (∀ c, t.flag.get c = (ac c || (s.flag.get c && !ι.consume.get c))) ∧
    match s.engine with
    | .independent cnt =>
      (∀ c, st c = (decide (cnt.get c = 0) && cd c)) ∧ (∀ c, ac c = (decide (cnt.get c = 1) && level s c)) ∧
      ∃ cnt', t.engine = .independent cnt' ∧
        ∀ c, cnt'.get c = if st c then s.settleCycles else if cnt.get c = 0 then 0 else cnt.get c - 1
    | .shared cnt owner =>
      if cnt = 0 then
        (∀ c, ac c = false) ∧
        if cd .arm || cd .react then
          ∃ w, w = (if cd s.priority then s.priority else s.priority.other) ∧ st w = true ∧ st w.other = false ∧
            t.engine = .shared s.settleCycles w
        else (∀ c, st c = false) ∧ t.engine = .shared 0 owner
      else
        (∀ c, st c = false) ∧ (∀ c, ac c = (decide (cnt = 1) && decide (c = owner) && level s owner)) ∧
        t.engine = .shared (cnt - 1) owner

/-- s with the word `ι` on its ports in the current cycle. -/
def State.withInputs (s : State) (ι : Inputs) : State := { s with inputs := ι.drive :: s.inputs.tail }

/-- A run (43_cycle_step.md R71): `σ_{t+1} = step(σ_t, ι_t)` for every t. -/
def IsRun (σ : Nat → State) (ι : Nat → Inputs) : Prop := ∀ t, step ((σ t).withInputs (ι t)) = .next (σ (t + 1))

/-- The run from a state under an input trace; where a step does not answer next, it stays where it is. -/
def runFrom (s : State) (ι : Nat → Inputs) : Nat → State
  | 0 => s
  | t + 1 =>
    match step ((runFrom s ι t).withInputs (ι t)) with
    | .next s' => s'
    | _ => runFrom s ι t

/-- `rst = 1` in the n cycles that end with cycle r, n at most r + 1 (70_reset_and_hazards.md R86). -/
def ResetCyclesEnding (ι : Nat → Inputs) (n r : Nat) : Prop := n ≤ r + 1 ∧ ∀ t, t ≤ r → r < t + n → (ι t).rst = true

/-- No reset in the cycles from a to b, both included. -/
def NoResetFromTo (ι : Nat → Inputs) (a b : Nat) : Prop := ∀ t, a ≤ t → t ≤ b → (ι t).rst = false

/-- Every register of the block the same in two states (10_state.md R13 to R17). -/
def SameRegisters (s t : State) : Prop :=
  t.sync = s.sync ∧ t.prev = s.prev ∧ t.pend = s.pend ∧ t.flag = s.flag ∧ t.engine = s.engine

/-- The registers of channel c the same in two states of independent engines (43_cycle_step.md R70). -/
def SameChannel (c : Channel) (s t : State) : Prop :=
  t.sync.get c = s.sync.get c ∧ t.prev.get c = s.prev.get c ∧ t.pend.get c = s.pend.get c ∧ t.flag.get c = s.flag.get c

/-- Two words with the same `rst` and the same bits of channel c (43_cycle_step.md R70). -/
def SameChannelInputs (c : Channel) (i j : Inputs) : Prop :=
  i.rst = j.rst ∧ i.btnRaw.get c = j.btnRaw.get c ∧ i.en.get c = j.en.get c ∧ i.clrPend.get c = j.clrPend.get c ∧
    i.consume.get c = j.consume.get c

/-- A phase of the source's game, as far as the consumer's duties name it (70_reset_and_hazards.md R89 to R93). The game
itself is out of scope (00_scope.md section 2). -/
inductive GamePhase where
  | idle
  | armed
  | stimulusPending
  | counting
  | finished
deriving DecidableEq, Repr

/-- The input words of a boot (70_reset_and_hazards.md R89): `rst = 1` for n cycles with the other inputs as given, n at
least `SYNC_STAGES`, then a word with `en[0] = 1` and `en[1] = 0`. -/
def bootDuty (syncStages : Nat) (resetWords : List Inputs) (first : Inputs) : Bool :=
  decide (syncStages ≤ resetWords.length) && resetWords.all (fun ι => ι.rst) && !first.rst && first.en.arm && !first.en.react

/-- R89 and R93: `en[1] = 0` in Idle and Armed, and from the cycle the consumer leaves Counting. -/
def maskDuty (phase : GamePhase) (now : Inputs) : Bool :=
  match phase with
  | .idle => !now.en.react
  | .armed => !now.en.react
  | .stimulusPending => true
  | .counting => true
  | .finished => !now.en.react

/-- R90: in the cycle in which `en[1]` is first driven to 1, `clr_pend[1]` and `consume[1]` are driven to 1 too. -/
def unmaskDuty (before now : Inputs) : Bool :=
  before.en.react || !now.en.react || (now.clrPend.react && now.consume.react)

/-- R91: when the consumer acts on `edge_flag[1] = 1` it drives `consume[1] = 1`. -/
def reactUseDuty (actsOnReactFlag : Bool) (now : Inputs) : Bool := !actsOnReactFlag || now.consume.react

/-- R92: outside Idle the consumer drives `consume[0] = 1` in every cycle (the first of the two ways the rule gives). -/
def armOutsideIdleDuty (phase : GamePhase) (now : Inputs) : Bool := decide (phase = .idle) || now.consume.arm

/-- Channel 0 is unmasked (R92): `en[0]` goes from 0 to 1 between two words of which neither is a reset word. DESIGN CHOICE
(safe, log 14): R92 does not say whether the boot's release counts as an unmasking. It does not here: R89 releases the reset
with `en[0] = 1` alone (`IDLEWORD`), and a reset cycle has left nothing pending and no flag (10_state.md R22). -/
def unmasksArm (before now : Inputs) : Bool := !before.rst && !now.rst && !before.en.arm && now.en.arm

/-- R92, the other way: outside Idle channel 0 is masked, and it is unmasked (`unmasksArm`, log 14) with `clr_pend[0] = 1` and
`consume[0] = 1`. -/
def armMaskedOutsideIdleDuty (phase : GamePhase) (before now : Inputs) : Bool :=
  (decide (phase = .idle) || !now.en.arm) && (!unmasksArm before now || (now.clrPend.arm && now.consume.arm))

end Sys2Proof.Machine
end

