-- ==== Sys2Proof/Certificates/Slice0/Obligations.lean ====
section
/-! DEFINITION. The statements for the provers. Each docstring names the rule of spec/ it formalises. Where a statement
quantifies over State it quantifies over every build of the block: the parameters are fields of State. -/

open Sys2Proof Sys2Proof.Machine

/-! ## Encoding, decoding and the step -/

/-- When the ports carry a word that decodes to i, a step is exec of i, in the next cycle of the environment (R9, R71). -/
def Obligations.StepRunsTheDecodedInstruction : Prop :=
  ∀ (s : State) (i : Instr), s.params.wellFormed = true → decode (portsNow s) = .ok i →
    step s = exec i { s with inputs := s.inputs.tail, cycle := s.cycle + 1 }

/-- Every row that applies to a word says what the step does (R36: 'Every row that applies acts'). -/
def Obligations.StepRunsEveryRowThatApplies : Prop :=
  ∀ (s : State) (w : IW) (i : Instr), s.params.wellFormed = true → i ∈ decodeAll w →
    step (s.withInputs (Ports.ofWord w)) = exec i { s with inputs := s.inputs.tail, cycle := s.cycle + 1 }

/-- Decode and encode agree on every row and every field: a word holds an instruction exactly if it is that instruction's
encoding, and what `decode` answers for an encoding encodes to it (R34 to R36). -/
def Obligations.DecodeAndEncodeAgree : Prop :=
  (∀ (w : IW) (i : Instr), i ∈ decodeAll w ↔ encode i = w) ∧
  (∀ (i : Instr), ∃ j, decode (Ports.ofWord (encode i)).drive = .ok j ∧ encode j = encode i) ∧
  (∀ (w : IW) (i : Instr), i ∈ decodeAll w → i.wellFormed = true ∧ i.row.applies w = true)

/-- The layout and the numeric formula of the word (R34). -/
def Obligations.FieldsOfTheInputWord : Prop :=
  ∀ (w : IW),
    (Ports.ofWord w).rst = w.getLsbD 0 ∧
    (∀ c : Channel, (Ports.ofWord w).btnRaw.get c = w.getLsbD (1 + c.index) ∧ (Ports.ofWord w).en.get c = w.getLsbD (3 + c.index) ∧
      (Ports.ofWord w).clrPend.get c = w.getLsbD (5 + c.index) ∧ (Ports.ofWord w).consume.get c = w.getLsbD (7 + c.index)) ∧
    w.toNat = (Ports.ofWord w).rst.toNat + 2 * (Ports.ofWord w).btnRaw.arm.toNat + 4 * (Ports.ofWord w).btnRaw.react.toNat
      + 8 * (Ports.ofWord w).en.arm.toNat + 16 * (Ports.ofWord w).en.react.toNat + 32 * (Ports.ofWord w).clrPend.arm.toNat
      + 64 * (Ports.ofWord w).clrPend.react.toNat + 128 * (Ports.ofWord w).consume.arm.toNat
      + 256 * (Ports.ofWord w).consume.react.toNat ∧
    (Ports.ofWord w).toWord = w

/-- Which rows apply to a word (R36), by its bits and by what `decodeAll` holds. -/
def Obligations.RowsThatApplyToAWord : Prop :=
  ∀ (w : IW),
    (∀ r : Row, r.applies w = true ↔ w &&& r.mask = r.pattern) ∧
    (∀ r : Row, r.applies w = true ↔ ∃ i ∈ decodeAll w, i.row = r) ∧
    (w.getLsbD 0 = true → ∀ r : Row, r.applies w = true ↔ r = .reset ∨ r = .sync) ∧
    (w.getLsbD 0 = false →
      Row.run.applies w = true ∧ Row.sync.applies w = true ∧ Row.reset.applies w = false ∧
      Row.enable0.applies w = w.getLsbD 3 ∧ Row.mask0.applies w = !w.getLsbD 3 ∧
      Row.enable1.applies w = w.getLsbD 4 ∧ Row.mask1.applies w = !w.getLsbD 4 ∧
      Row.clearPending0.applies w = w.getLsbD 5 ∧ Row.clearPending1.applies w = w.getLsbD 6 ∧
      Row.consume0.applies w = w.getLsbD 7 ∧ Row.consume1.applies w = w.getLsbD 8)

/-- Words of 95_test_vectors.md section 2.4 and the rows that apply to them. -/
def Obligations.RowsOfTheExampleWords : Prop :=
  (decodeAll 0x0A9).map Instr.row = [.sync, .reset] ∧
  (decodeAll 0x00A).map Instr.row = [.sync, .run, .enable0, .mask1] ∧
  (decodeAll 0x158).map Instr.row = [.sync, .run, .enable0, .enable1, .clearPending1, .consume1] ∧
  (decodeAll 0x0E0).map Instr.row = [.sync, .run, .mask0, .mask1, .clearPending0, .clearPending1, .consume0] ∧
  decodeTableWord 16 0x0A9 = some (.reset ⟨false, false⟩ ⟨true, false⟩ ⟨true, false⟩ ⟨true, false⟩) ∧
  decodeTableWord 16 0x158 = some (.consume1 ⟨false, false⟩ ⟨true, true⟩ ⟨false, true⟩ false)

/-- A port that carries neither 0 nor 1 is refused, by the name of such a port (R10, R39). -/
def Obligations.UndefinedPortIsRefused : Prop :=
  ∀ (s : State) (p : PortSample) (q : Port), s.params.wellFormed = true → s.inputs.head? = some p → (p.get q).bit = none →
    ∃ q', (p.get q').bit = none ∧ step s = .refused (.notAWord (.undefinedLevel q'))

/-- Parameters outside their legal ranges are refused: the block is not built and never run; every legal request is built,
with the parameters asked for (R8). -/
def Obligations.IllegalParametersAreRefused : Prop :=
  (∀ (b : BuildRequest) (d : PowerUpDraw), b.syncStages = 0 ∨ b.settleCycles = 0 ∨ 2 ≤ b.priority →
    build b d = .error .illegalConfiguration) ∧
  (∀ s : State, s.syncStages = 0 ∨ s.settleCycles = 0 → step s = .refused .illegalConfiguration) ∧
  (∀ (b : BuildRequest) (d : PowerUpDraw), 1 ≤ b.syncStages → 1 ≤ b.settleCycles → b.priority ≤ 1 →
    ∃ s, build b d = .ok s ∧ s.params.wellFormed = true ∧ s.params.syncStages = b.syncStages ∧
      s.params.settleCycles = b.settleCycles ∧ s.params.sharedSettle = b.sharedSettle ∧ s.params.priority.index = b.priority)

/-- The sizes of a power-up state, whatever is drawn: in a block that has just been built every counter is a value of `CNT_W` bits
(R18) and every synchroniser has its stages (R13), and losing power keeps the parameters and gives such a state again (R84). -/
def Obligations.PowerUpDrawsFitTheirRegisters : Prop :=
  (∀ (b : BuildRequest) (d : PowerUpDraw), b.wellFormed = true → ∃ s, build b d = .ok s ∧
    ∀ c, windowCount s c < 2 ^ cntW b.settleCycles ∧ (s.sync.get c).length = b.syncStages) ∧
  (∀ (s : State) (d : PowerUpDraw) (c : Channel), (losePower s d).params = s.params ∧
    windowCount (losePower s d) c < 2 ^ cntW s.settleCycles ∧ ((losePower s d).sync.get c).length = s.syncStages)

/-- `step` is total and deterministic (R69): from every well-formed state every word gives exactly one next state. -/
def Obligations.EveryWordStepsToExactlyOneState : Prop :=
  ∀ (s : State) (ι : Inputs), s.wf = true → ∃! t, step (s.withInputs ι) = .next t

/-- Every step keeps the well-formed states (R19, R13): each counter stays in 0 .. `SETTLE_CYCLES`, each synchroniser keeps its
`SYNC_STAGES` stages, and the parameters stay as they are. -/
def Obligations.StepKeepsWellFormedStates : Prop :=
  ∀ (s t : State), s.wf = true → step s = .next t → t.wf = true ∧ t.params = s.params

/-- The state after a complete reset is well formed for every legal build, holds the reset values of R22, and is what the
model starts from. The synchroniser's zeros are log 5, `SETTLE_CYCLES` of State.reset is log 4. -/
def Obligations.ResetStateIsWellFormed : Prop :=
  (∀ p : Params, p.wellFormed = true → (State.afterReset p).wf = true ∧ (State.afterReset p).params = p ∧
    outputs (State.afterReset p) = { edgeFlag := 0, edgePending := 0, busy := 0 } ∧
    (p.sharedSettle = false → (State.afterReset p).engine = .independent ⟨0, 0⟩) ∧
    (p.sharedSettle = true → (State.afterReset p).engine = .shared 0 .arm) ∧
    ∀ c, (State.afterReset p).prev.get c = true ∧ (State.afterReset p).pend.get c = false ∧ (State.afterReset p).flag.get c = false ∧
      windowCount (State.afterReset p) c = 0) ∧
  State.reset.wf = true ∧ State.reset.syncStages = 2 ∧ State.reset.engine = .independent ⟨0, 0⟩ ∧ State.reset.priority = .arm

/-- `CNT_W` is the least width that holds `SETTLE_CYCLES`, so every well-formed counter fits in it (R18). -/
def Obligations.CounterWidthIsLeast : Prop :=
  (∀ n w : Nat, 1 ≤ n → (n < 2 ^ w ↔ cntW n ≤ w)) ∧ cntW 1 = 1 ∧ cntW 4 = 3 ∧ cntW 16000 = 14 ∧
  (∀ (s : State) (c : Channel), s.wf = true → windowCount s c < 2 ^ cntW s.settleCycles)

/-! ## Reset -/

/-- `RESET` (R85): the synchroniser shifts, everything else takes its reset value, whatever the other commands say. -/
def Obligations.ResetCycleWritesTheResetValues : Prop :=
  ∀ (btn en clr con : Pair Bool) (s : State), ∃ t, exec (.reset btn en clr con) s = .next t ∧
    Unchanged s t ∧ SyncShifted btn s t ∧
    (∀ c, t.prev.get c = true ∧ t.pend.get c = false ∧ t.flag.get c = false) ∧
    (∀ cnt, s.engine = .independent cnt → t.engine = .independent ⟨0, 0⟩) ∧
    (∀ cnt owner, s.engine = .shared cnt owner → t.engine = .shared 0 .arm)

/-- After a reset cycle the block is idle, and the next cycle has no raw edge (R88, R22). -/
def Obligations.BlockIsIdleAfterAReset : Prop :=
  ∀ (btn en clr con : Pair Bool) (s : State), ∃ t, exec (.reset btn en clr con) s = .next t ∧
    outputs t = { edgeFlag := 0, edgePending := 0, busy := 0 } ∧ ∀ c, rise t c = false

/-- `SYNC` (R42, R35): a cycle of any word is the reset's if its `rst` is 1 and the run's if it is 0. -/
def Obligations.SyncRunsTheCycleOfItsWord : Prop :=
  ∀ (rst : Bool) (btn en clr con : Pair Bool) (s : State), ∃ t, exec (.sync rst btn en clr con) s = .next t ∧
    exec (if rst then .reset btn en clr con else .run btn en clr con) s = .next t ∧ SyncShifted btn s t ∧ Unchanged s t

/-- The synchroniser shifts in every cycle, reset cycles included, whatever the row (R42). -/
def Obligations.EveryInstructionShiftsTheSynchroniser : Prop :=
  ∀ (i : Instr) (s : State), ∃ t, exec i s = .next t ∧ SyncShifted i.inputs.btnRaw s t

/-! ## The composed cycle and the two latches -/

/-- `RUN` (R68): the composed cycle. -/
def Obligations.RunIsTheComposedCycle : Prop :=
  ∀ (btn en clr con : Pair Bool) (s : State), ∃ t, exec (.run btn en clr con) s = .next t ∧
    IsRunCycle { rst := false, btnRaw := btn, en := en, clrPend := clr, consume := con } s t

/-- Every row whose word has `rst = 0` is the composed cycle of its word (R35, R36, R68). -/
def Obligations.CommandRowsAreTheComposedCycle : Prop :=
  ∀ (i : Instr) (s : State), i.inputs.rst = false → ∃ t, exec i s = .next t ∧ IsRunCycle i.inputs s t

/-- `prev[c]` follows the level one cycle behind; a reset sets it (R44). -/
def Obligations.PrevFollowsTheLevel : Prop :=
  ∀ (i : Instr) (s : State) (c : Channel), ∃ t, exec i s = .next t ∧
    t.prev.get c = if i.inputs.rst then true else level s c

/-- `CAPTURE` (R46): the pending latch; a raw edge sets it whatever the enable, the engine or the flag, and set dominates clear. -/
def Obligations.PendingLatchCapturesRawEdges : Prop :=
  ∀ (i : Instr) (s : State) (c : Channel), i.inputs.rst = false → ∃ t, exec i s = .next t ∧
    t.pend.get c = (rise s c || (s.pend.get c && !i.inputs.clrPend.get c && !startsWindow i.inputs s c)) ∧
    (rise s c = true → t.pend.get c = true)

/-- The validated-edge flag (R60): set by an accepted re-sample, cleared by a consume, and set dominates clear; nothing else but a
reset writes it. -/
def Obligations.FlagIsSetByAcceptedReSample : Prop :=
  ∀ (i : Instr) (s : State) (c : Channel), ∃ t, exec i s = .next t ∧
    t.flag.get c = (!i.inputs.rst && (resampleReads s c || (s.flag.get c && !i.inputs.consume.get c)))

/-- Events that meet in one cycle (R75), row by row; the last row is the reset's. -/
def Obligations.SameCycleEventsOfAChannel : Prop :=
  ∀ (btn en clr con : Pair Bool) (s : State) (c : Channel),
    let ι : Inputs := { rst := false, btnRaw := btn, en := en, clrPend := clr, consume := con }
    (∃ t, exec (.run btn en clr con) s = .next t ∧
      (rise s c = true → clr.get c = true → t.pend.get c = true) ∧
      (rise s c = true → startsWindow ι s c = true → t.pend.get c = true ∧ windowCount t c = s.settleCycles) ∧
      (clr.get c = true → en.get c = true → s.pend.get c = true →
        startsWindow ι s c = false ∧ t.pend.get c = rise s c ∧ (windowCount s c = 0 → windowCount t c = 0)) ∧
      (resampleReads s c = true → con.get c = true → t.flag.get c = true) ∧
      (windowCount s c = 1 → startsWindow ι s c = false) ∧
      (en.get c = false → windowCount s c ≠ 0 → windowCount t c = windowCount s c - 1)) ∧
    (∃ t, exec (.reset btn en clr con) s = .next t ∧
      t.prev.get c = true ∧ t.pend.get c = false ∧ t.flag.get c = false ∧ windowCount t c = 0)

/-! ## The commands -/

/-- `CLEAR_PENDING0` (R47): the pending edge is discarded and its start suppressed; the flag, the synchroniser and a running window
go on as without the clear. -/
def Obligations.ClearPending0DiscardsTheStaleEdge : Prop :=
  ∀ (btn en con : Pair Bool) (clr1 : Bool) (s : State), ∃ t u,
    exec (.clearPending0 btn en clr1 con) s = .next t ∧ exec (.run btn en ⟨false, clr1⟩ con) s = .next u ∧
    t.pend.arm = rise s .arm ∧ (windowCount s .arm = 0 → windowCount t .arm = 0) ∧
    (windowCount s .arm ≠ 0 → t.engine = u.engine ∧ t.pend.react = u.pend.react) ∧
    (s.engine.isShared = false → windowCount t .react = windowCount u .react ∧ t.pend.react = u.pend.react) ∧
    t.flag = u.flag ∧ t.sync = u.sync ∧ t.prev = u.prev ∧ Unchanged s t

/-- `CLEAR_PENDING1` (R47), the same for the react channel. -/
def Obligations.ClearPending1DiscardsTheStaleEdge : Prop :=
  ∀ (btn en con : Pair Bool) (clr0 : Bool) (s : State), ∃ t u,
    exec (.clearPending1 btn en clr0 con) s = .next t ∧ exec (.run btn en ⟨clr0, false⟩ con) s = .next u ∧
    t.pend.react = rise s .react ∧ (windowCount s .react = 0 → windowCount t .react = 0) ∧
    (windowCount s .react ≠ 0 → t.engine = u.engine ∧ t.pend.arm = u.pend.arm) ∧
    (s.engine.isShared = false → windowCount t .arm = windowCount u .arm ∧ t.pend.arm = u.pend.arm) ∧
    t.flag = u.flag ∧ t.sync = u.sync ∧ t.prev = u.prev ∧ Unchanged s t

/-- `CONSUME0` and `CONSUME1` (R61): the consumed channel's flag becomes its accepted re-sample; nothing else changes against a cycle
without the consume. -/
def Obligations.ConsumeClearsOnlyItsFlag : Prop :=
  (∀ (btn en clr : Pair Bool) (con1 : Bool) (s : State), ∃ t u,
    exec (.consume0 btn en clr con1) s = .next t ∧ exec (.run btn en clr ⟨false, con1⟩) s = .next u ∧
    t.flag.arm = resampleReads s .arm ∧ t.flag.react = u.flag.react ∧ t = { u with flag := t.flag } ∧ Unchanged s t) ∧
  (∀ (btn en clr : Pair Bool) (con0 : Bool) (s : State), ∃ t u,
    exec (.consume1 btn en clr con0) s = .next t ∧ exec (.run btn en clr ⟨con0, false⟩) s = .next u ∧
    t.flag.react = resampleReads s .react ∧ t.flag.arm = u.flag.arm ∧ t = { u with flag := t.flag } ∧ Unchanged s t)

/-- `ENABLE0` and `MASK0` (R49): the enable acts only through the candidate of its channel. A masked channel starts no window and keeps
its pending edge; an enabled one starts at once where its engine is idle (and won); the rest of the cycle does not read the enable. -/
def Obligations.EnableAndMask0ActThroughTheCandidate : Prop :=
  ∀ (btn clr con : Pair Bool) (en1 : Bool) (s : State), ∃ t u,
    exec (.enable0 btn en1 clr con) s = .next t ∧ exec (.mask0 btn en1 clr con) s = .next u ∧
    t.sync = u.sync ∧ t.prev = u.prev ∧ t.flag = u.flag ∧ Unchanged s t ∧ Unchanged s u ∧
    ((s.pend.arm && !clr.arm) = false ∨ windowCount s .arm ≠ 0 → t = u) ∧
    u.pend.arm = (rise s .arm || (s.pend.arm && !clr.arm)) ∧ windowCount u .arm = windowCount s .arm - 1 ∧
    (startsWindow { rst := false, btnRaw := btn, en := ⟨true, en1⟩, clrPend := clr, consume := con } s .arm = true →
      windowCount t .arm = s.settleCycles ∧ t.pend.arm = rise s .arm)

/-- `ENABLE1` and `MASK1` (R49), the same for the react channel. -/
def Obligations.EnableAndMask1ActThroughTheCandidate : Prop :=
  ∀ (btn clr con : Pair Bool) (en0 : Bool) (s : State), ∃ t u,
    exec (.enable1 btn en0 clr con) s = .next t ∧ exec (.mask1 btn en0 clr con) s = .next u ∧
    t.sync = u.sync ∧ t.prev = u.prev ∧ t.flag = u.flag ∧ Unchanged s t ∧ Unchanged s u ∧
    ((s.pend.react && !clr.react) = false ∨ windowCount s .react ≠ 0 → t = u) ∧
    u.pend.react = (rise s .react || (s.pend.react && !clr.react)) ∧ windowCount u .react = windowCount s .react - 1 ∧
    (startsWindow { rst := false, btnRaw := btn, en := ⟨en0, true⟩, clrPend := clr, consume := con } s .react = true →
      windowCount t .react = s.settleCycles ∧ t.pend.react = rise s .react)

/-- The word of `UNMASK1` (R90): with `clr_pend[1]` and `consume[1]` in the cycle that enables the react channel, the stale
pending edge and the stale flag are discarded in that cycle: no window starts on that edge, and flag[1] holds only what a re-sample of
that very cycle accepts. A window that already runs goes on (R95), and an edge still in the synchroniser is kept (R94). -/
def Obligations.UnmaskDutyDiscardsStaleEdgeAndFlag : Prop :=
  ∀ (i : Instr) (s : State) (before : Inputs), i.inputs.rst = false → before.en.react = false → i.inputs.en.react = true →
    unmaskDuty before i.inputs = true → ∃ t, exec i s = .next t ∧
      t.pend.react = rise s .react ∧ windowCount t .react = windowCount s .react - 1 ∧ t.flag.react = resampleReads s .react

/-! ## The settle engine -/

/-- One engine per channel: `START`, `COUNT` and `IDLE` (R51, R52, R54). -/
def Obligations.IndependentEngineStartsCountsAndIdles : Prop :=
  ∀ (btn en clr con : Pair Bool) (s : State) (cnt : Pair Nat), s.engine = .independent cnt →
    ∃ t cnt', exec (.run btn en clr con) s = .next t ∧ t.engine = .independent cnt' ∧ ∀ c,
      (cnt.get c = 0 → s.pend.get c = true → en.get c = true → clr.get c = false →
        cnt'.get c = s.settleCycles ∧ t.pend.get c = rise s c ∧ t.flag.get c = (s.flag.get c && !con.get c)) ∧
      (2 ≤ cnt.get c → cnt'.get c = cnt.get c - 1 ∧ t.flag.get c = (s.flag.get c && !con.get c) ∧
        t.pend.get c = (rise s c || (s.pend.get c && !clr.get c))) ∧
      (cnt.get c = 0 → (s.pend.get c && en.get c && !clr.get c) = false →
        cnt'.get c = 0 ∧ t.flag.get c = (s.flag.get c && !con.get c))

/-- One engine per channel: the re-sample (R53): the engine goes idle, and the level of that cycle alone decides the flag. -/
def Obligations.IndependentReSampleReadsOneLevel : Prop :=
  ∀ (btn en clr con : Pair Bool) (s : State) (cnt : Pair Nat) (c : Channel), s.engine = .independent cnt → cnt.get c = 1 →
    ∃ t cnt', exec (.run btn en clr con) s = .next t ∧ t.engine = .independent cnt' ∧ cnt'.get c = 0 ∧
      (level s c = true → t.flag.get c = true) ∧ (level s c = false → t.flag.get c = (s.flag.get c && !con.get c)) ∧
      t.pend.get c = (rise s c || (s.pend.get c && !clr.get c))

/-- The shared engine's arbitration (R56): the `PRIORITY` channel if it is a candidate, else the other; the loser stays pending; with no
candidate nothing starts. -/
def Obligations.SharedEngineArbitrates : Prop :=
  ∀ (btn en clr con : Pair Bool) (s : State) (owner : Channel), s.engine = .shared 0 owner →
    ∃ t, exec (.run btn en clr con) s = .next t ∧
      let cd := fun c : Channel => s.pend.get c && en.get c && !clr.get c
      let keeps := fun c : Channel => t.pend.get c = (rise s c || (s.pend.get c && !clr.get c))
      (cd s.priority = true → t.engine = .shared s.settleCycles s.priority ∧ t.pend.get s.priority = rise s s.priority ∧
        keeps s.priority.other) ∧
      (cd s.priority = false → cd s.priority.other = true → t.engine = .shared s.settleCycles s.priority.other ∧
        t.pend.get s.priority.other = rise s s.priority.other ∧ keeps s.priority) ∧
      (cd s.priority = false → cd s.priority.other = false → t.engine = .shared 0 owner ∧ ∀ c, keeps c) ∧
      ∀ c, t.flag.get c = (s.flag.get c && !con.get c)

/-- The shared engine counts, re-samples its owner's level only, and keeps `owner` (R57). -/
def Obligations.SharedEngineCountsAndReSamples : Prop :=
  ∀ (btn en clr con : Pair Bool) (s : State) (cnt : Nat) (owner : Channel), s.engine = .shared cnt owner → cnt ≠ 0 →
    ∃ t, exec (.run btn en clr con) s = .next t ∧ t.engine = .shared (cnt - 1) owner ∧
      t.flag.get owner = ((decide (cnt = 1) && level s owner) || (s.flag.get owner && !con.get owner)) ∧
      t.flag.get owner.other = (s.flag.get owner.other && !con.get owner.other) ∧
      ∀ c, t.pend.get c = (rise s c || (s.pend.get c && !clr.get c))

/-- A running window runs to its re-sample: no input but `rst` changes its counter or the owner (R55). -/
def Obligations.RunningWindowIgnoresTheInputs : Prop :=
  ∀ (i j : Instr) (s : State), i.inputs.rst = false → j.inputs.rst = false → ∃ t u, exec i s = .next t ∧ exec j s = .next u ∧
    (∀ c, windowCount s c ≠ 0 → windowCount t c = windowCount s c - 1 ∧ windowCount u c = windowCount s c - 1) ∧
    (∀ cnt owner, s.engine = .shared cnt owner → cnt ≠ 0 → t.engine = u.engine)

/-- The channels are separate in independent mode; in shared mode they meet only in the engine and its arbitration (R70). -/
def Obligations.ChannelsAreSeparate : Prop :=
  ∀ (i j : Instr) (s s' : State) (c : Channel), s.params = s'.params → SameChannelInputs c i.inputs j.inputs → SameChannel c s s' →
    ∃ t t', exec i s = .next t ∧ exec j s' = .next t' ∧
      (s.engine.isShared = false → windowCount s c = windowCount s' c → SameChannel c t t' ∧ windowCount t c = windowCount t' c) ∧
      (s.engine.isShared = true → s.engine = s'.engine → startsWindow i.inputs s c = startsWindow j.inputs s' c → SameChannel c t t')

/-! ## Outputs, constants and the trace syntax -/

/-- The outputs are registers, or `busy`, of the same state: bit c is channel c (R63, R58). -/
def Obligations.OutputsAreTheRegisters : Prop :=
  ∀ (s : State) (c : Channel),
    (outputs s).edgeFlag.getLsbD c.index = s.flag.get c ∧ (outputs s).edgePending.getLsbD c.index = s.pend.get c ∧
    (∀ cnt, s.engine = .independent cnt → (outputs s).busy.getLsbD c.index = decide (cnt.get c ≠ 0)) ∧
    (∀ cnt owner, s.engine = .shared cnt owner → (outputs s).busy.getLsbD c.index = (decide (cnt ≠ 0) && decide (owner = c)))

/-- The pseudo-commands of the trace syntax (R41). -/
def Obligations.PseudoCommandExpansions : Prop :=
  ∀ (syncStages n : Nat) (w : IW),
    PseudoCommand.resetSeq.expand syncStages = List.replicate syncStages 0x001 ∧ PseudoCommand.idleWord.expand syncStages = [0x008] ∧
    PseudoCommand.unmask1.expand syncStages = [0x158] ∧ (PseudoCommand.wait w n).expand syncStages = List.replicate n w

/-- A number in the trace syntax names its word, once or as often as the count says; a number of ten bits is refused (R40, R39; log 17). -/
def Obligations.TraceLinesNameWords : Prop :=
  parseLine "E0+B0 x9".toList = some (List.replicate 9 0x00A) ∧ parseLine "NOP".toList = some [0x000] ∧
  parseLine "0x158".toList = some [0x158] ∧ parseLine "E0+E1+C1+K1".toList = some [0x158] ∧ parseLine "0x200".toList = none ∧
  parseTrace "R x2\nE0+B0".toList = some [0x001, 0x001, 0x00A]

/-- The derived constants: `LATENCY_CYCLES` (R64), its milliseconds (R67), and the recommended `SETTLE_CYCLES` (R5, R99), the least whole
number of cycles that is not shorter than the interval. -/
def Obligations.DerivedConstants : Prop :=
  (∀ n m : Nat, latencyCycles n m = n + m + 2) ∧
  (∀ n m hz : Nat, hz ≠ 0 → latencyMilliseconds n m hz * hz = ((n + m + 2) * 1000 : Nat)) ∧
  (∀ hz ms k : Nat, recommendedSettleCycles hz ms ≤ k ↔ hz * ms ≤ 1000 * k) ∧
  recommendedSettleCycles 1000000 1 = 1000 ∧ recommendedSettleCycles 16000000 1 = 16000

/-! ## Runs -/

/-- The level is the last stage, and it is the line `SYNC_STAGES` cycles earlier (R43). -/
def Obligations.LevelIsTheLineSyncStagesEarlier : Prop :=
  ∀ (σ : Nat → State) (ι : Nat → Inputs) (t : Nat) (c : Channel), IsRun σ ι →
    ((σ (t + (σ 0).syncStages)).sync.get c)[(σ 0).syncStages - 1]? = some ((ι t).btnRaw.get c) ∧
    level (σ (t + (σ 0).syncStages)) c = (ι t).btnRaw.get c

/-- After a complete reset that ends with cycle r, stage k holds the line of cycle r - k, and every other register its reset value
(R86); after a shorter one of n cycles, the stages not loaded keep what was in the synchroniser before it. -/
def Obligations.CompleteResetFixesTheSynchroniser : Prop :=
  ∀ (σ : Nat → State) (ι : Nat → Inputs) (n r : Nat) (c : Channel), IsRun σ ι → ResetCyclesEnding ι n r → 1 ≤ n →
    (∀ k, k < n → k < (σ 0).syncStages → ((σ (r + 1)).sync.get c)[k]? = some ((ι (r - k)).btnRaw.get c)) ∧
    (∀ k, n ≤ k → k < (σ 0).syncStages → ((σ (r + 1)).sync.get c)[k]? = ((σ (r + 1 - n)).sync.get c)[k - n]?) ∧
    (σ (r + 1)).prev.get c = true ∧ (σ (r + 1)).pend.get c = false ∧ (σ (r + 1)).flag.get c = false ∧
    windowCount (σ (r + 1)) c = 0

/-- Nothing of the state before the first complete reset is left after it: two blocks of one build under one input trace hold the same
registers in every cycle after it, whatever they held before (R23, R86). -/
def Obligations.CompleteResetForgetsThePast : Prop :=
  ∀ (σ σ' : Nat → State) (ι : Nat → Inputs) (r : Nat), IsRun σ ι → IsRun σ' ι → (σ 0).params = (σ' 0).params →
    ResetCyclesEnding ι (σ 0).syncStages r → ∀ t, r < t → SameRegisters (σ t) (σ' t)

/-- A button held through a complete reset makes no press; one first pressed in the last `SYNC_STAGES - 1` reset cycles is a raw edge
(R87). -/
def Obligations.ButtonHeldThroughResetIsNoPress : Prop :=
  ∀ (σ : Nat → State) (ι : Nat → Inputs) (r : Nat) (c : Channel), IsRun σ ι → ResetCyclesEnding ι (σ 0).syncStages r →
    ((∀ t, r + 1 ≤ t + (σ 0).syncStages → (ι t).btnRaw.get c = true) →
      ∀ t, r < t → rise (σ t) c = false ∧ (σ t).flag.get c = false) ∧
    (∀ u, r + 1 < u + 1 + (σ 0).syncStages → u + 1 ≤ r → (ι u).btnRaw.get c = false → (ι (u + 1)).btnRaw.get c = true →
      NoResetFromTo ι (r + 1) (u + 1 + (σ 0).syncStages) → rise (σ (u + 1 + (σ 0).syncStages)) c = true)

/-- A window that starts in cycle t and meets no reset counts `SETTLE_CYCLES` cycles: `busy` is 1 in exactly those cycles (R58, R53), and
the re-sample in cycle t + `SETTLE_CYCLES` acts whatever `en`, `clr_pend` and `consume` read (R95). -/
def Obligations.WindowRunsForSettleCycles : Prop :=
  ∀ (σ : Nat → State) (ι : Nat → Inputs) (t : Nat) (c : Channel), IsRun σ ι → startsWindow (ι t) (σ t) c = true →
    NoResetFromTo ι t (t + (σ 0).settleCycles) →
      busy (σ t) c = false ∧
      (∀ k, 1 ≤ k → k ≤ (σ 0).settleCycles →
        busy (σ (t + k)) c = true ∧ windowCount (σ (t + k)) c = (σ 0).settleCycles + 1 - k) ∧
      busy (σ (t + (σ 0).settleCycles + 1)) c = false ∧
      (σ (t + (σ 0).settleCycles + 1)).flag.get c = (level (σ (t + (σ 0).settleCycles)) c ||
        ((σ (t + (σ 0).settleCycles)).flag.get c && !(ι (t + (σ 0).settleCycles)).consume.get c))

/-- Two starts on one engine are at least `SETTLE_CYCLES + 1` cycles apart (R59). -/
def Obligations.StartsOnOneEngineAreFarApart : Prop :=
  ∀ (σ : Nat → State) (ι : Nat → Inputs) (t u : Nat) (c d : Channel), IsRun σ ι → t < u → NoResetFromTo ι t u →
    (c = d ∨ (σ 0).engine.isShared = true) → startsWindow (ι t) (σ t) c = true → startsWindow (ι u) (σ u) d = true →
      t + (σ 0).settleCycles + 1 ≤ u

/-- A clear does not reach into the synchroniser (R94): it removes the edges detected before its cycle, and a line that first reads 1 in
cycle u + 1 is a pending edge `SYNC_STAGES + 1` cycles later, whatever is cleared meanwhile. -/
def Obligations.ClearDoesNotReachIntoTheSynchroniser : Prop :=
  ∀ (σ : Nat → State) (ι : Nat → Inputs) (c : Channel), IsRun σ ι →
    (∀ v, (ι v).rst = false → (ι v).clrPend.get c = true → (σ (v + 1)).pend.get c = rise (σ v) c) ∧
    (∀ u, (ι u).btnRaw.get c = false → (ι (u + 1)).btnRaw.get c = true →
      NoResetFromTo ι (u + (σ 0).syncStages) (u + 1 + (σ 0).syncStages) →
        (σ (u + 1 + (σ 0).syncStages + 1)).pend.get c = true)

/-- No output shows a change of the lines before `SYNC_STAGES + 1` cycles (R30): two runs from one state whose words differ only in
`btn_raw`, and only from cycle t on, carry the same outputs up to the state of cycle t + `SYNC_STAGES`. -/
def Obligations.LinesShowNoEarlierThanTheSynchroniserAllows : Prop :=
  ∀ (σ σ' : Nat → State) (ι ι' : Nat → Inputs) (t : Nat), IsRun σ ι → IsRun σ' ι' → σ 0 = σ' 0 →
    (∀ u, u < t → ι u = ι' u) →
    (∀ u, (ι u).rst = (ι' u).rst ∧ (ι u).en = (ι' u).en ∧ (ι u).clrPend = (ι' u).clrPend ∧ (ι u).consume = (ι' u).consume) →
    ∀ u, u ≤ t + (σ 0).syncStages → outputs (σ u) = outputs (σ' u)

/-- A clean press (R64, R65): under the conditions of R64 the line's rise in cycle t + 1 is a raw edge, its window starts and
re-samples in the cycles the table of R64 gives, and the press is accepted by its first window exactly if the line reads 1 at the
cycle the re-sample sees; then the flag is up `LATENCY_CYCLES` after the first cycle that reads 1, and from the start to the re-sample
no cycle raises it earlier. -/
def Obligations.CleanPressIsAcceptedAfterLatencyCycles : Prop :=
  ∀ (σ : Nat → State) (ι : Nat → Inputs) (t : Nat) (c : Channel),
    let n := (σ 0).syncStages
    let m := (σ 0).settleCycles
    IsRun σ ι → (ι t).btnRaw.get c = false → (ι (t + 1)).btnRaw.get c = true →
    NoResetFromTo ι t (t + latencyCycles n m) →
    (σ (t + 1 + n)).pend.get c = false → (ι (t + 1 + n + 1)).en.get c = true → (ι (t + 1 + n + 1)).clrPend.get c = false →
    (∀ cnt, (σ (t + 1 + n + 1)).engine = .independent cnt → cnt.get c = 0) →
    (∀ cnt owner, (σ (t + 1 + n + 1)).engine = .shared cnt owner → cnt = 0 ∧ (c = (σ 0).priority ∨
      ((σ (t + 1 + n + 1)).pend.get c.other && (ι (t + 1 + n + 1)).en.get c.other && !(ι (t + 1 + n + 1)).clrPend.get c.other) = false)) →
      rise (σ (t + 1 + n)) c = true ∧ (σ (t + 1 + n + 1)).pend.get c = true ∧
      startsWindow (ι (t + 1 + n + 1)) (σ (t + 1 + n + 1)) c = true ∧
      (∀ u, t + 1 + n + 1 ≤ u → u < t + latencyCycles n m → (σ (u + 1)).flag.get c = true → (σ u).flag.get c = true) ∧
      windowCount (σ (t + 1 + n + 1 + m)) c = 1 ∧
      resampleReads (σ (t + 1 + n + 1 + m)) c = (ι (t + 1 + m + 1)).btnRaw.get c ∧
      ((ι (t + 1 + m + 1)).btnRaw.get c = true → (σ (t + 1 + latencyCycles n m)).flag.get c = true)

/-- The source's debounce property (R66): a bounce train of channel c whose line is at 0 from cycle t + `SETTLE_CYCLES` + 1 on, with no
window of the channel running in cycle t + `SYNC_STAGES` and no reset from t on, is accepted by no window that starts in cycle
t + `SYNC_STAGES` + 1 or later; and if none starts in cycle t + `SYNC_STAGES` either, no cycle from there on raises the flag. -/
def Obligations.BounceTrainIsNeverAccepted : Prop :=
  ∀ (σ : Nat → State) (ι : Nat → Inputs) (t : Nat) (c : Channel),
    let n := (σ 0).syncStages
    let m := (σ 0).settleCycles
    IsRun σ ι → (ι t).btnRaw.get c = true → (∀ u, t ≤ u → (ι u).rst = false) → windowCount (σ (t + n)) c = 0 →
    (∀ u, t + m + 1 ≤ u → (ι u).btnRaw.get c = false) →
      (∀ v, t + n + 1 ≤ v → startsWindow (ι v) (σ v) c = true →
        windowCount (σ (v + m)) c = 1 ∧ resampleReads (σ (v + m)) c = false) ∧
      (startsWindow (ι (t + n)) (σ (t + n)) c = false →
        ∀ u, t + n ≤ u → (σ (u + 1)).flag.get c = true → (σ u).flag.get c = true)

/-- What the block does, in one rule (R3): after a reset cycle r, the flag of a channel rises in a cycle u only if a window for a pending
edge of that channel started exactly `SETTLE_CYCLES` cycles before, no reset came between, and the line's level at u reads 1. -/
def Obligations.FlagRisesOnlyAfterAFullWindow : Prop :=
  ∀ (σ : Nat → State) (ι : Nat → Inputs) (r u : Nat) (c : Channel), IsRun σ ι → (ι r).rst = true → r < u →
    (σ u).flag.get c = false → (σ (u + 1)).flag.get c = true →
      level (σ u) c = true ∧ ∃ v, r < v ∧ v + (σ 0).settleCycles = u ∧ (σ v).pend.get c = true ∧
        startsWindow (ι v) (σ v) c = true ∧ NoResetFromTo ι v u

/-- A power-up may leave any content that fits the registers (R23, R84): whatever the state before, and whatever else was drawn, every content of
the registers that fits them (R13, R18) is what some draw leaves, when a block is built and when it loses power. -/
def Obligations.PowerUpMayDrawAnyRegisters : Prop :=
  ∀ (t : State), (∀ c, (t.sync.get c).length = t.syncStages) →
    (∀ cnt, t.engine = .independent cnt → ∀ c, cnt.get c < 2 ^ cntW t.settleCycles) →
    (∀ cnt owner, t.engine = .shared cnt owner → cnt < 2 ^ cntW t.settleCycles) →
      (∀ s : State, s.params = t.params → ∃ d, SameRegisters t (losePower s d)) ∧
      (∀ b : BuildRequest, b.wellFormed = true → b.syncStages = t.syncStages → b.settleCycles = t.settleCycles →
        b.sharedSettle = t.engine.isShared → ∃ d u, build b d = .ok u ∧ SameRegisters t u)

/-- Pseudo-commands in the text of a trace (R41): each stands as a line and names the words of its expansion, and every line of R40's
grammar is read as without them. That a name may stand as a line is the model's choice (log 17). -/
def Obligations.PseudoCommandLinesNameWords : Prop :=
  (∀ n : Nat,
    parseCommandLine n "RESETSEQ".toList = some (List.replicate n 0x001) ∧ parseCommandLine n "IDLEWORD".toList = some [0x008] ∧
    parseCommandLine n "UNMASK1".toList = some [0x158] ∧ parseCommandLine n "WAIT E0+B0 9".toList = some (List.replicate 9 0x00A) ∧
    ∀ s ws, parseLine s = some ws → parseCommandLine n s = some ws) ∧
  parseCommandTrace 2 "RESETSEQ\nE0+B1 x3\nUNMASK1".toList = some [0x001, 0x001, 0x00C, 0x00C, 0x00C, 0x158]

/-- The two consumer's rules about channel 0 agree (R89, R92): a boot as R89 describes it meets the masking duty of R92 in Idle, with
whatever `en[0]` in the reset words; the boot's release is no unmasking, which is the model's choice (log 14). -/
def Obligations.BootMeetsTheArmMaskingDuty : Prop :=
  ∀ (syncStages : Nat) (resetWords : List Inputs) (last first : Inputs),
    bootDuty syncStages (resetWords ++ [last]) first = true → armMaskedOutsideIdleDuty .idle last first = true

/-- A consumer that unmasks channel 0 as R92 says leaves no start on the stale pending edge and no stale flag: pend[0] holds only the raw
edge of that cycle, no window starts, and flag[0] only what a re-sample of that very cycle accepts. -/
def Obligations.ArmUnmaskingDiscardsStaleEdgeAndFlag : Prop :=
  ∀ (phase : GamePhase) (i : Instr) (s : State) (before : Inputs), unmasksArm before i.inputs = true →
    armMaskedOutsideIdleDuty phase before i.inputs = true → phase = .idle ∧ ∃ t, exec i s = .next t ∧
      t.pend.arm = rise s .arm ∧ windowCount t .arm = windowCount s .arm - 1 ∧ t.flag.arm = resampleReads s .arm
end

