-- ==== Sys2Proof/Laws/State.lean ====
section
/-! SUPPORT. One lemma per field of State per update, and the small lemmas of `Pair` and `Ports`. -/

namespace Sys2Proof

@[simp] theorem Pair.get_mk_arm {α : Type} (a b : α) : (Pair.mk a b).get .arm = a := rfl
@[simp] theorem Pair.get_mk_react {α : Type} (a b : α) : (Pair.mk a b).get .react = b := rfl
@[simp] theorem Pair.get_ofFn {α : Type} (f : Channel → α) (c : Channel) : (Pair.ofFn f).get c = f c := by cases c <;> rfl
@[simp] theorem Pair.arm_ofFn {α : Type} (f : Channel → α) : (Pair.ofFn f).arm = f .arm := rfl
@[simp] theorem Pair.react_ofFn {α : Type} (f : Channel → α) : (Pair.ofFn f).react = f .react := rfl
@[simp] theorem Channel.other_other (c : Channel) : c.other.other = c := by cases c <;> rfl
@[simp] theorem Channel.other_ne (c : Channel) : c.other ≠ c := by cases c <;> decide

/-- Two pairs are equal if they agree at every channel. -/
theorem Pair.eq_of_get {α : Type} {p q : Pair α} (h : ∀ c, p.get c = q.get c) : p = q := by
  obtain ⟨a, b⟩ := p
  obtain ⟨c, d⟩ := q
  have ha : a = c := h .arm
  have hb : b = d := h .react
  rw [ha, hb]

/-- A channel that is not c is the other one. -/
theorem Channel.eq_other_of_ne {c d : Channel} (h : d ≠ c) : d = c.other := by
  cases c <;> cases d <;> first | rfl | exact absurd rfl h

namespace Machine

variable (s : State) (ι : Inputs) (n w : Nat)

@[simp] theorem nextCycle_syncStages : (nextCycle s).syncStages = s.syncStages := rfl
@[simp] theorem nextCycle_settleCycles : (nextCycle s).settleCycles = s.settleCycles := rfl
@[simp] theorem nextCycle_priority : (nextCycle s).priority = s.priority := rfl
@[simp] theorem nextCycle_sync : (nextCycle s).sync = s.sync := rfl
@[simp] theorem nextCycle_prev : (nextCycle s).prev = s.prev := rfl
@[simp] theorem nextCycle_pend : (nextCycle s).pend = s.pend := rfl
@[simp] theorem nextCycle_flag : (nextCycle s).flag = s.flag := rfl
@[simp] theorem nextCycle_engine : (nextCycle s).engine = s.engine := rfl
@[simp] theorem nextCycle_inputs : (nextCycle s).inputs = s.inputs.tail := rfl
@[simp] theorem nextCycle_cycle : (nextCycle s).cycle = s.cycle + 1 := rfl

@[simp] theorem withInputs_syncStages : (s.withInputs ι).syncStages = s.syncStages := rfl
@[simp] theorem withInputs_settleCycles : (s.withInputs ι).settleCycles = s.settleCycles := rfl
@[simp] theorem withInputs_priority : (s.withInputs ι).priority = s.priority := rfl
@[simp] theorem withInputs_sync : (s.withInputs ι).sync = s.sync := rfl
@[simp] theorem withInputs_prev : (s.withInputs ι).prev = s.prev := rfl
@[simp] theorem withInputs_pend : (s.withInputs ι).pend = s.pend := rfl
@[simp] theorem withInputs_flag : (s.withInputs ι).flag = s.flag := rfl
@[simp] theorem withInputs_engine : (s.withInputs ι).engine = s.engine := rfl
@[simp] theorem withInputs_inputs : (s.withInputs ι).inputs = ι.drive :: s.inputs.tail := rfl
@[simp] theorem withInputs_cycle : (s.withInputs ι).cycle = s.cycle := rfl

@[simp] theorem withFetchWord_params : (s.withFetchWord n w).params = s.params := rfl
@[simp] theorem withFetchWord_sync : (s.withFetchWord n w).sync = s.sync := rfl
@[simp] theorem withFetchWord_prev : (s.withFetchWord n w).prev = s.prev := rfl
@[simp] theorem withFetchWord_pend : (s.withFetchWord n w).pend = s.pend := rfl
@[simp] theorem withFetchWord_flag : (s.withFetchWord n w).flag = s.flag := rfl
@[simp] theorem withFetchWord_engine : (s.withFetchWord n w).engine = s.engine := rfl
@[simp] theorem withFetchWord_inputs :
    (s.withFetchWord n w).inputs = (Ports.ofWord (BitVec.ofNat 9 (w % 2 ^ n))).drive :: s.inputs.tail := rfl
@[simp] theorem withFetchWord_cycle : (s.withFetchWord n w).cycle = s.cycle := rfl

@[simp] theorem runCycle_syncStages : (runCycle ι s).syncStages = s.syncStages := rfl
@[simp] theorem runCycle_settleCycles : (runCycle ι s).settleCycles = s.settleCycles := rfl
@[simp] theorem runCycle_priority : (runCycle ι s).priority = s.priority := rfl
@[simp] theorem runCycle_sync : (runCycle ι s).sync = nextSync ι s := rfl
@[simp] theorem runCycle_prev (c : Channel) : (runCycle ι s).prev.get c = level s c := Pair.get_ofFn _ c
@[simp] theorem runCycle_pend (c : Channel) :
    (runCycle ι s).pend.get c = nextPend (rise s c) (s.pend.get c) (ι.clrPend.get c) (start ι s c) := Pair.get_ofFn _ c
@[simp] theorem runCycle_flag (c : Channel) :
    (runCycle ι s).flag.get c = nextFlag (accept ι s c) (s.flag.get c) (ι.consume.get c) := Pair.get_ofFn _ c
@[simp] theorem runCycle_engine : (runCycle ι s).engine = nextEngine ι s := rfl
@[simp] theorem runCycle_inputs : (runCycle ι s).inputs = s.inputs := rfl
@[simp] theorem runCycle_cycle : (runCycle ι s).cycle = s.cycle := rfl

@[simp] theorem resetCycle_syncStages : (resetCycle ι s).syncStages = s.syncStages := rfl
@[simp] theorem resetCycle_settleCycles : (resetCycle ι s).settleCycles = s.settleCycles := rfl
@[simp] theorem resetCycle_priority : (resetCycle ι s).priority = s.priority := rfl
@[simp] theorem resetCycle_sync : (resetCycle ι s).sync = nextSync ι s := rfl
@[simp] theorem resetCycle_prev (c : Channel) : (resetCycle ι s).prev.get c = true := by cases c <;> rfl
@[simp] theorem resetCycle_pend (c : Channel) : (resetCycle ι s).pend.get c = false := by cases c <;> rfl
@[simp] theorem resetCycle_flag (c : Channel) : (resetCycle ι s).flag.get c = false := by cases c <;> rfl
@[simp] theorem resetCycle_engine : (resetCycle ι s).engine = idleEngine s.engine := rfl
@[simp] theorem resetCycle_inputs : (resetCycle ι s).inputs = s.inputs := rfl
@[simp] theorem resetCycle_cycle : (resetCycle ι s).cycle = s.cycle := rfl

variable (p : Params) (d : PowerUpDraw) (c : Channel)

@[simp] theorem powerUp_params : (powerUp p d).params = p := by obtain ⟨_, _, sh, _⟩ := p; cases sh <;> rfl
@[simp] theorem powerUp_sync : (powerUp p d).sync.get c = powerUpStages p.syncStages (d.stages.get c) := Pair.get_ofFn _ c
@[simp] theorem powerUp_prev : (powerUp p d).prev = d.prev := rfl
@[simp] theorem powerUp_pend : (powerUp p d).pend = d.pend := rfl
@[simp] theorem powerUp_flag : (powerUp p d).flag = d.flag := rfl
@[simp] theorem powerUp_inputs : (powerUp p d).inputs = [] := rfl
@[simp] theorem powerUp_cycle : (powerUp p d).cycle = 0 := rfl

@[simp] theorem losePower_sync : (losePower s d).sync = (powerUp s.params d).sync := rfl
@[simp] theorem losePower_prev : (losePower s d).prev = d.prev := rfl
@[simp] theorem losePower_pend : (losePower s d).pend = d.pend := rfl
@[simp] theorem losePower_flag : (losePower s d).flag = d.flag := rfl
@[simp] theorem losePower_engine : (losePower s d).engine = (powerUp s.params d).engine := rfl
@[simp] theorem losePower_inputs : (losePower s d).inputs = s.inputs := rfl
@[simp] theorem losePower_cycle : (losePower s d).cycle = s.cycle := rfl

end Machine

end Sys2Proof
end

