-- ==== Sys2Proof/Laws/Decode.lean ====
section
/-! SUPPORT. What the decoder's functions do, once: bits driven on the ports are read back, and a word is its fields. -/

namespace Sys2Proof

@[simp] theorem Wire.bit_ofBit (b : Bool) : (Wire.ofBit b).bit = some b := by cases b <;> rfl

@[simp] theorem Ports.get_ofFn {α : Type} (f : Port → α) (q : Port) : (Ports.ofFn f).get q = f q := by
  cases q <;> simp [Ports.ofFn, Ports.get]

/-- Two port values are equal if they agree at every port. -/
theorem Ports.eq_of_get {α : Type} {p q : Ports α} (h : ∀ r, p.get r = q.get r) : p = q := by
  obtain ⟨a, b, c, d, e⟩ := p
  obtain ⟨a', b', c', d', e'⟩ := q
  have h0 : a = a' := h .rst
  have h1 : b = b' := Pair.eq_of_get fun x => h (.btnRaw x)
  have h2 : c = c' := Pair.eq_of_get fun x => h (.en x)
  have h3 : d = d' := Pair.eq_of_get fun x => h (.clrPend x)
  have h4 : e = e' := Pair.eq_of_get fun x => h (.consume x)
  rw [h0, h1, h2, h3, h4]

@[simp] theorem Ports.get_drive (i : Inputs) (q : Port) : i.drive.get q = Wire.ofBit (i.get q) := Ports.get_ofFn _ q

/-- Bits driven on the ports are read back. -/
@[simp] theorem Ports.resolve_drive (i : Inputs) : i.drive.resolve = .ok i := by
  have hnone : (Port.all.find? fun q => (i.drive.get q).bit.isNone) = none := by simp [List.find?_eq_none]
  have hback : (Ports.ofFn fun q => (i.drive.get q).bit.getD false) = i := Ports.eq_of_get fun r => by simp
  rw [Ports.resolve, hnone]
  exact congrArg Except.ok hback

/-- `resolve` answers with bits only where every port carries one, and names a port that carries none. -/
theorem Ports.resolve_error {p : PortSample} {e : DecodeError} (h : p.resolve = .error e) :
    ∃ q, e = .undefinedLevel q ∧ (p.get q).bit = none := by
  unfold Ports.resolve at h
  split at h
  next q hq =>
    have hbit := List.find?_some hq
    exact ⟨q, by cases h; rfl, by simpa using hbit⟩
  next => cases h

/-- Every port is in the list of ports. -/
theorem Port.mem_all (q : Port) : q ∈ Port.all := by
  cases q with
  | rst => decide
  | btnRaw c => cases c <;> decide
  | en c => cases c <;> decide
  | clrPend c => cases c <;> decide
  | consume c => cases c <;> decide

/-- The fields of the word with given fields. -/
@[simp] theorem Ports.ofWord_toWord (i : Inputs) : Ports.ofWord i.toWord = i := by
  obtain ⟨r, ⟨b0, b1⟩, ⟨e0, e1⟩, ⟨c0, c1⟩, ⟨k0, k1⟩⟩ := i
  cases r <;> cases b0 <;> cases b1 <;> cases e0 <;> cases e1 <;> cases c0 <;> cases c1 <;> cases k0 <;> cases k1 <;> rfl

/-- Driven bits decode to the instruction of their word. -/
@[simp] theorem decode_drive (i : Inputs) : decode i.drive = .ok (decodeWord i.toWord) := by simp [decode]

/-- When a row applies, by the bits of the word (30_encoding.md R36). -/
def Row.selected (r : Row) (i : Inputs) : Bool :=
  match r with
  | .sync => true
  | .reset => i.rst
  | .run => !i.rst
  | .enable0 => !i.rst && i.en.arm
  | .mask0 => !i.rst && !i.en.arm
  | .enable1 => !i.rst && i.en.react
  | .mask1 => !i.rst && !i.en.react
  | .clearPending0 => !i.rst && i.clrPend.arm
  | .clearPending1 => !i.rst && i.clrPend.react
  | .consume0 => !i.rst && i.consume.arm
  | .consume1 => !i.rst && i.consume.react

/-- The mask and match of a row say the same as the bits it names. -/
theorem Row.applies_toWord (r : Row) (i : Inputs) : r.applies i.toWord = r.selected i := by
  obtain ⟨a, ⟨b0, b1⟩, ⟨e0, e1⟩, ⟨c0, c1⟩, ⟨k0, k1⟩⟩ := i
  cases a <;> cases b0 <;> cases b1 <;> cases e0 <;> cases e1 <;> cases c0 <;> cases c1 <;> cases k0 <;> cases k1 <;>
    cases r <;> rfl

/-- A row that applies reads an instruction whose ports carry the fields it was read from. -/
theorem Row.inputs_read {r : Row} {i : Inputs} (h : r.selected i = true) : (r.read i).inputs = i := by
  obtain ⟨a, ⟨b0, b1⟩, ⟨e0, e1⟩, ⟨c0, c1⟩, ⟨k0, k1⟩⟩ := i
  cases r <;> simp_all [Row.selected, Row.read, Instr.inputs]

/-- The row `decodeWord` takes for given fields applies to them. -/
theorem decodeWord_toWord (i : Inputs) : ∃ r : Row, r.selected i = true ∧ decodeWord i.toWord = r.read i := by
  unfold decodeWord
  rw [Ports.ofWord_toWord]
  cases h : Row.bySpecificity.find? fun r => r.applies i.toWord with
  | none => exact ⟨.sync, rfl, rfl⟩
  | some r =>
    have hr := List.find?_some h
    rw [Row.applies_toWord] at hr
    exact ⟨r, hr, rfl⟩

/-- The ports of the instruction a word decodes to carry that word. -/
@[simp] theorem decodeWord_inputs (i : Inputs) : (decodeWord i.toWord).inputs = i := by
  obtain ⟨r, hr, h⟩ := decodeWord_toWord i
  rw [h, Row.inputs_read hr]

end Sys2Proof
end

