-- ==== Sys2Proof/Laws/Ops.lean ====
section
/-! SUPPORT. What each shared operation does, once, in the terms of the claims (`startsWindow`, `windowCount`,
`resampleReads`), for the provers to cite. -/

namespace Sys2Proof.Machine

/-- Stage k after a shift (40_edge_capture.md R42). -/
theorem shift_stage (stages : Nat) (line : Bool) (sync : List Bool) (k : Nat) :
    (shift stages line sync)[k]? = if k < stages then (if k = 0 then some line else sync[k - 1]?) else none := by
  unfold shift
  by_cases hk : k < stages
  · cases k <;> simp [hk]
  · simp [hk]

/-- The shift keeps `SYNC_STAGES` stages. -/
theorem shift_length {stages : Nat} {line : Bool} {sync : List Bool} (h : sync.length = stages) :
    (shift stages line sync).length = stages := by
  simp [shift, h]

/-- Both synchronisers after a cycle. -/
theorem nextSync_shifted (ι : Inputs) (s : State) (c : Channel) (k : Nat) :
    ((nextSync ι s).get c)[k]? =
      if k < s.syncStages then (if k = 0 then some (ι.btnRaw.get c) else (s.sync.get c)[k - 1]?) else none := by
  rw [nextSync, Pair.get_ofFn, shift_stage]

/-- A power-up draws `SYNC_STAGES` stages (10_state.md R13). -/
@[simp] theorem powerUpStages_length (stages draw : Nat) : (powerUpStages stages draw).length = stages := List.length_ofFn

/-- Every content of a synchroniser is the draw of some number (10_state.md R23). -/
theorem powerUpStages_ofBits (l : List Bool) : powerUpStages l.length (Nat.ofBits l.get) = l := by
  simp [powerUpStages, Nat.testBit_ofBits_lt]

/-- A counter drawn at power-up has `CNT_W` bits (10_state.md R18). -/
theorem powerUpCounter_lt (settle draw : Nat) : powerUpCounter settle draw < 2 ^ cntW settle :=
  Nat.mod_lt _ (Nat.two_pow_pos _)

/-- Every number of `CNT_W` bits is its own draw (10_state.md R23). -/
theorem powerUpCounter_of_lt {settle n : Nat} (h : n < 2 ^ cntW settle) : powerUpCounter settle n = n := Nat.mod_eq_of_lt h

/-- An engine starts exactly if it is idle and has a candidate. -/
theorem engineOp_start (cnt : Nat) (cd lv : Bool) : engineOp cnt cd lv = .start ↔ cnt = 0 ∧ cd = true := by
  unfold engineOp
  split_ifs <;> simp_all

/-- An engine accepts exactly if its counter is 1 and the level is 1. -/
theorem engineOp_accept (cnt : Nat) (cd lv : Bool) : engineOp cnt cd lv = .accept ↔ cnt = 1 ∧ lv = true := by
  unfold engineOp
  split_ifs <;> simp_all

/-- The counter after an engine's operation: `SETTLE_CYCLES` after a start, else one less, not below 0. -/
theorem nextCount_engineOp (settle cnt : Nat) (cd lv : Bool) :
    nextCount settle cnt (engineOp cnt cd lv) = if cnt = 0 ∧ cd = true then settle else cnt - 1 := by
  unfold engineOp
  split_ifs <;> simp_all [nextCount]

/-- The independent engines after a run cycle (41_settle_window.md R51 to R54). -/
theorem nextEngine_independent {s : State} {cnt : Pair Nat} (ι : Inputs) (h : s.engine = .independent cnt) :
    nextEngine ι s =
      .independent (.ofFn fun c => if cnt.get c = 0 ∧ cand ι s c = true then s.settleCycles else cnt.get c - 1) := by
  simp only [nextEngine, h, nextCount_engineOp]

/-- The shared engine after a run cycle (41_settle_window.md R56, R57). -/
theorem nextEngine_shared {s : State} {cnt : Nat} {owner : Channel} (ι : Inputs) (h : s.engine = .shared cnt owner) :
    nextEngine ι s =
      if cnt = 0 then (if cand ι s (winner ι s) = true then .shared s.settleCycles (winner ι s) else .shared 0 owner)
      else .shared (cnt - 1) owner := by
  simp only [nextEngine, h, nextCount_engineOp, engineOp_start]
  by_cases h0 : cnt = 0
  · by_cases hw : cand ι s (winner ι s) = true <;> simp [served, h0, hw]
  · simp [h0]

/-- The winner of the arbitration is a candidate exactly if some channel is. -/
theorem cand_winner (ι : Inputs) (s : State) : cand ι s (winner ι s) = (cand ι s .arm || cand ι s .react) := by
  unfold winner
  cases hp : s.priority <;> cases ha : cand ι s .arm <;> cases hr : cand ι s .react <;> simp [Channel.other, ha, hr]

/-- The arbitration of 41_settle_window.md R56 seen from one channel: c wins and is a candidate exactly if it is a candidate and
is `PRIORITY`, or the `PRIORITY` channel is none. -/
theorem winner_and_cand (ι : Inputs) (s : State) (c : Channel) :
    (c = winner ι s ∧ cand ι s c = true) ↔ (cand ι s c = true ∧ (c = s.priority ∨ cand ι s s.priority = false)) := by
  unfold winner
  cases hp : cand ι s s.priority
  · by_cases hc : c = s.priority
    · subst hc
      simp [hp]
    · have := Channel.eq_other_of_ne hc
      simp [this]
  · by_cases hc : c = s.priority <;> simp [hc]

/-- The engine's start is the start of the claims (41_settle_window.md R51, R56). -/
theorem start_eq_startsWindow (ι : Inputs) (s : State) (c : Channel) : start ι s c = startsWindow ι s c := by
  have hcand : ∀ d, (s.pend.get d && ι.en.get d && !ι.clrPend.get d) = cand ι s d := fun _ => rfl
  unfold start startsWindow channelOp
  simp only [hcand]
  cases s.engine with
  | independent cnt => simp [engineOp_start, Bool.decide_and]
  | shared cnt owner =>
    have hw := winner_and_cand ι s c
    by_cases h0 : cnt = 0
    · rw [Bool.eq_iff_iff]
      simp only [served, h0, if_true, decide_eq_true_eq, Bool.and_eq_true, Bool.or_eq_true, Bool.not_eq_true']
      by_cases hc : c = winner ι s
      · rw [if_pos hc, Option.some.injEq, engineOp_start]
        simp only [true_and]
        exact ⟨fun h => hw.mp ⟨hc, h⟩, fun h => h.1⟩
      · rw [if_neg hc]
        exact ⟨fun h => (by cases h), fun h => absurd (hw.mpr ⟨h.1.2, h.2⟩).1 hc⟩
    · by_cases hc : c = served ι s cnt owner <;> simp [h0, hc, engineOp_start]

/-- The engine's accept is the accepted re-sample of the claims (41_settle_window.md R53, R57). -/
theorem accept_eq_resampleReads (ι : Inputs) (s : State) (c : Channel) : accept ι s c = resampleReads s c := by
  unfold accept resampleReads windowCount channelOp
  cases s.engine with
  | independent cnt => simp [engineOp_accept, Bool.decide_and]
  | shared cnt owner =>
    by_cases h0 : cnt = 0
    · by_cases hc : c = served ι s cnt owner <;> simp [h0, hc, engineOp_accept]
    · by_cases hc : owner = c
      · subst hc
        simp [served, h0, engineOp_accept, Bool.decide_and]
      · have hc' : ¬ c = owner := fun h => hc h.symm
        simp [served, h0, hc, hc']

/-- The window counter of a channel after a run cycle (41_settle_window.md R51 to R54, R56, R57). -/
theorem windowCount_runCycle (ι : Inputs) (s : State) (c : Channel) :
    windowCount (runCycle ι s) c = if startsWindow ι s c = true then s.settleCycles else windowCount s c - 1 := by
  rw [← start_eq_startsWindow]
  have hst : start ι s c = decide (channelOp ι s c = some .start) := rfl
  rw [hst]
  unfold windowCount channelOp
  rw [runCycle_engine, nextEngine]
  cases s.engine with
  | independent cnt => simp [nextCount_engineOp, engineOp_start]
  | shared cnt owner =>
    by_cases h0 : cnt = 0
    · by_cases hw : cand ι s (winner ι s) = true
      · by_cases hc : c = winner ι s
        · simp [served, h0, hw, hc, nextCount_engineOp, engineOp_start]
        · have hc' : ¬ winner ι s = c := fun h => hc h.symm
          simp [served, h0, hw, hc, hc', engineOp_start]
      · by_cases hc : c = winner ι s <;> simp [served, h0, hw, hc, nextCount_engineOp, engineOp_start]
    · by_cases hc : owner = c
      · subst hc
        simp [served, h0, nextCount_engineOp, engineOp_start]
      · have hc' : ¬ c = owner := fun h => hc h.symm
        simp [served, h0, hc, hc', engineOp_start]

/-- A reset cycle leaves no window running (70_reset_and_hazards.md R85). -/
theorem windowCount_resetCycle (ι : Inputs) (s : State) (c : Channel) : windowCount (resetCycle ι s) c = 0 := by
  unfold windowCount
  rw [resetCycle_engine]
  cases s.engine <;> cases c <;> rfl

end Sys2Proof.Machine
end

