-- ==== Sys2Proof/Laws/PerInstr.lean ====
section
/-! SUPPORT. Statements for every instruction, one lemma per constructor. -/

namespace Sys2Proof.Laws

/-- The row of an instruction applies to its encoding (30_encoding.md R36), and reads from its word's fields that very
instruction. -/
def RowApplies.Statement (i : Instr) : Prop := i.row.applies (encode i) = true ∧ i.row.read (Ports.ofWord (encode i)) = i

/-- The statement follows from the bits the row names. -/
theorem rowApplies_of_selected {i : Instr} (h : i.row.selected i.inputs = true) (hread : i.row.read i.inputs = i) :
    RowApplies.Statement i := by
  unfold RowApplies.Statement encode
  rw [Row.applies_toWord, Ports.ofWord_toWord]
  exact ⟨h, hread⟩

theorem RowApplies.sync (r : Bool) (b e c k : Pair Bool) : RowApplies.Statement (.sync r b e c k) := rowApplies_of_selected rfl rfl
theorem RowApplies.reset (b e c k : Pair Bool) : RowApplies.Statement (.reset b e c k) := rowApplies_of_selected rfl rfl
theorem RowApplies.run (b e c k : Pair Bool) : RowApplies.Statement (.run b e c k) := rowApplies_of_selected rfl rfl
theorem RowApplies.enable0 (b : Pair Bool) (e1 : Bool) (c k : Pair Bool) : RowApplies.Statement (.enable0 b e1 c k) := rowApplies_of_selected rfl rfl
theorem RowApplies.mask0 (b : Pair Bool) (e1 : Bool) (c k : Pair Bool) : RowApplies.Statement (.mask0 b e1 c k) := rowApplies_of_selected rfl rfl
theorem RowApplies.enable1 (b : Pair Bool) (e0 : Bool) (c k : Pair Bool) : RowApplies.Statement (.enable1 b e0 c k) := rowApplies_of_selected rfl rfl
theorem RowApplies.mask1 (b : Pair Bool) (e0 : Bool) (c k : Pair Bool) : RowApplies.Statement (.mask1 b e0 c k) := rowApplies_of_selected rfl rfl
theorem RowApplies.clearPending0 (b e : Pair Bool) (c1 : Bool) (k : Pair Bool) : RowApplies.Statement (.clearPending0 b e c1 k) := rowApplies_of_selected rfl rfl
theorem RowApplies.clearPending1 (b e : Pair Bool) (c0 : Bool) (k : Pair Bool) : RowApplies.Statement (.clearPending1 b e c0 k) := rowApplies_of_selected rfl rfl
theorem RowApplies.consume0 (b e c : Pair Bool) (k1 : Bool) : RowApplies.Statement (.consume0 b e c k1) := rowApplies_of_selected rfl rfl
theorem RowApplies.consume1 (b e c : Pair Bool) (k0 : Bool) : RowApplies.Statement (.consume1 b e c k0) := rowApplies_of_selected rfl rfl

end Sys2Proof.Laws
end

