-- ==== Sys2Proof/Laws/Step.lean ====
section
/-! SUPPORT. What an instruction and a step can do, once: the cycle of a word, the inversion of `exec` and of `step`, and that a
run exists from every block with legal parameters. -/

namespace Sys2Proof.Machine

/-- The next state of a cycle with a given word (43_cycle_step.md R71): the reset's where `rst = 1`, else the run's. -/
def cycleOf (ι : Inputs) (s : State) : State := if ι.rst then resetCycle ι s else runCycle ι s

/-- Every instruction answers next, with the cycle of its word. -/
theorem exec_eq_cycleOf (i : Instr) (s : State) : exec i s = .next (cycleOf i.inputs s) := by
  cases i <;> rfl

/-- What an instruction's next state can be. -/
theorem exec_next {i : Instr} {s t : State} (h : exec i s = .next t) : t = cycleOf i.inputs s := by
  rw [exec_eq_cycleOf] at h
  cases h
  rfl

/-- What a step's next state can be: the cycle of the word on the ports, from a block with legal parameters. -/
theorem step_next {s t : State} (h : step s = .next t) :
    s.params.wellFormed = true ∧ ∃ i, decode (portsNow s) = .ok i ∧ t = cycleOf i.inputs (nextCycle s) := by
  unfold step at h
  split at h
  next hp =>
    split at h
    next => cases h
    next i hi => exact ⟨hp, i, hi, exec_next h⟩
  next => cases h

/-- The parameters a cycle leaves: all of them. -/
theorem cycleOf_params (ι : Inputs) (s : State) : (cycleOf ι s).params = s.params := by
  unfold cycleOf
  split
  · cases h : s.engine <;> simp [State.params, h, idleEngine, Engine.isShared]
  · cases h : s.engine <;> simp [State.params, h, nextEngine, Engine.isShared]

/-- The step of a block with legal parameters whose ports carry a word. -/
theorem step_withInputs {s : State} (ι : Inputs) (h : s.params.wellFormed = true) :
    step (s.withInputs ι) = .next (cycleOf ι (nextCycle s)) := by
  have hp : (s.withInputs ι).params.wellFormed = true := h
  have hports : portsNow (s.withInputs ι) = ι.drive := rfl
  have hcycle : nextCycle (s.withInputs ι) = nextCycle s := rfl
  unfold step
  rw [if_pos hp, hports, decode_drive, hcycle]
  simp only [exec_eq_cycleOf, decodeWord_inputs]

/-- The parameters along `runFrom`. -/
theorem runFrom_params (s : State) (ι : Nat → Inputs) (h : s.params.wellFormed = true) (t : Nat) :
    (runFrom s ι t).params = s.params := by
  induction t with
  | zero => rfl
  | succ t ih =>
    have hw : (runFrom s ι t).params.wellFormed = true := by rw [ih]; exact h
    rw [runFrom, step_withInputs _ hw]
    exact (cycleOf_params _ _).trans ih

/-- From a block with legal parameters every input trace has its run (43_cycle_step.md R71). -/
theorem runFrom_isRun {s : State} (ι : Nat → Inputs) (h : s.params.wellFormed = true) : IsRun (runFrom s ι) ι := by
  intro t
  have hw : (runFrom s ι t).params.wellFormed = true := by rw [runFrom_params s ι h]; exact h
  rw [runFrom, step_withInputs _ hw]

/-- One step of a run. -/
theorem IsRun.succ {σ : Nat → State} {ι : Nat → Inputs} (h : IsRun σ ι) (t : Nat) :
    (σ t).params.wellFormed = true ∧ σ (t + 1) = cycleOf (ι t) (nextCycle (σ t)) := by
  have hp : (σ t).params.wellFormed = true := (step_next (h t)).1
  have ht := h t
  rw [step_withInputs _ hp] at ht
  exact ⟨hp, (Host.Outcome.next.inj ht).symm⟩

end Sys2Proof.Machine
end

