-- ==== Sys2Proof/Laws/WellFormed.lean ====
section
/-! SUPPORT. The checks as propositions, so that no proof unfolds them again. -/

namespace Sys2Proof

theorem Params.wellFormed_iff (p : Params) : p.wellFormed = true ↔ 1 ≤ p.syncStages ∧ 1 ≤ p.settleCycles := by
  unfold Params.wellFormed
  rw [Bool.and_eq_true, decide_eq_true_iff, decide_eq_true_iff]

theorem BuildRequest.wellFormed_iff (b : BuildRequest) :
    b.wellFormed = true ↔ (1 ≤ b.syncStages ∧ 1 ≤ b.settleCycles) ∧ b.priority ≤ 1 := by
  unfold BuildRequest.wellFormed
  rw [Bool.and_eq_true, Bool.and_eq_true, decide_eq_true_iff, decide_eq_true_iff, decide_eq_true_iff]

namespace Machine

/-- The legal parameters of a state (00_scope.md R4, R5). -/
theorem params_wellFormed_iff (s : State) : s.params.wellFormed = true ↔ 1 ≤ s.syncStages ∧ 1 ≤ s.settleCycles :=
  Params.wellFormed_iff s.params

/-- Every settle counter is at most n exactly if both channels' window counters are, and an idle channel hides none. -/
theorem countsAtMost_independent (n : Nat) (cnt : Pair Nat) :
    (Engine.independent cnt).countsAtMost n = true ↔ ∀ c, cnt.get c ≤ n := by
  unfold Engine.countsAtMost
  rw [Bool.and_eq_true, decide_eq_true_iff, decide_eq_true_iff]
  exact ⟨fun h c => by cases c <;> [exact h.1; exact h.2], fun h => ⟨h .arm, h .react⟩⟩

theorem countsAtMost_shared (n cnt : Nat) (owner : Channel) : (Engine.shared cnt owner).countsAtMost n = true ↔ cnt ≤ n := by
  unfold Engine.countsAtMost
  rw [decide_eq_true_iff]

/-- A well-formed state, part by part. -/
theorem State.wf_iff (s : State) : s.wf = true ↔
    (((1 ≤ s.syncStages ∧ 1 ≤ s.settleCycles) ∧ s.sync.arm.length = s.syncStages) ∧ s.sync.react.length = s.syncStages) ∧
      s.engine.countsAtMost s.settleCycles = true := by
  unfold State.wf
  rw [Bool.and_eq_true, Bool.and_eq_true, Bool.and_eq_true, decide_eq_true_iff, decide_eq_true_iff, params_wellFormed_iff]

end Machine

end Sys2Proof
end

