-- ==== Sys2Proof/Tests/Slice0.lean ====
section
/-! SUPPORT. Tests of the model, each expected result taken from spec/ (95_test_vectors.md unless a comment says otherwise), and
for every statement with hypotheses a witness that meets them all. -/

namespace Sys2Proof.Machine.Tests

/-! ## The checks refuse what is ill formed (00_scope.md R8, R10, 30_encoding.md R39) -/

theorem test_no_stages_refused : Params.wellFormed ⟨0, 4, false, .arm⟩ = false := by decide
theorem test_no_settle_refused : Params.wellFormed ⟨2, 0, false, .arm⟩ = false := by decide
theorem test_request_without_stages_refused : BuildRequest.wellFormed ⟨0, 4, false, 0⟩ = false := by decide
theorem test_request_without_settle_refused : BuildRequest.wellFormed ⟨2, 0, false, 0⟩ = false := by decide
theorem test_priority_two_refused : BuildRequest.wellFormed ⟨2, 4, true, 2⟩ = false := by decide
theorem test_request_with_defaults_legal : (BuildRequest.withDefaults 4).wellFormed = true := by decide
theorem test_unknown_level_refused :
    PortSample.wellFormed { (Ports.ofWord 0x00A).drive with rst := .unknown } = false := by decide
theorem test_highz_level_refused :
    decode { (Ports.ofWord 0x00A).drive with en := ⟨.high, .highZ⟩ } = .error (.undefinedLevel (.en .react)) := by decide
theorem test_ten_bit_number_refused : isWordNumber 512 = false ∧ decodeTableWord 16 512 = none := by decide

/-! ## Decoding: words written out bit by bit from 30_encoding.md R34 and R36 -/

theorem test_decode_sync : Instr.sync true ⟨true, false⟩ ⟨false, false⟩ ⟨false, true⟩ ⟨false, false⟩ ∈ decodeAll 0b001000011 := by decide
theorem test_decode_reset : decodeWord 0b000000101 = .reset ⟨false, true⟩ ⟨false, false⟩ ⟨false, false⟩ ⟨false, false⟩ := by decide
theorem test_decode_run : decodeWord 0b000000010 = .run ⟨true, false⟩ ⟨false, false⟩ ⟨false, false⟩ ⟨false, false⟩ := by decide
theorem test_decode_enable0 : decodeWord 0b000001010 = .enable0 ⟨true, false⟩ false ⟨false, false⟩ ⟨false, false⟩ := by decide
theorem test_decode_mask0 : Instr.mask0 ⟨false, true⟩ true ⟨false, false⟩ ⟨false, false⟩ ∈ decodeAll 0b000010100 := by decide
theorem test_decode_enable1 : decodeWord 0b000011000 = .enable1 ⟨false, false⟩ true ⟨false, false⟩ ⟨false, false⟩ := by decide
theorem test_decode_mask1 : Instr.mask1 ⟨true, false⟩ true ⟨false, false⟩ ⟨false, false⟩ ∈ decodeAll 0b000001010 := by decide
theorem test_decode_clearPending0 :
    decodeWord 0b000101010 = .clearPending0 ⟨true, false⟩ ⟨true, false⟩ false ⟨false, false⟩ := by decide
theorem test_decode_clearPending1 :
    decodeWord 0b001100100 = .clearPending1 ⟨false, true⟩ ⟨false, false⟩ true ⟨false, false⟩ := by decide
theorem test_decode_consume0 : decodeWord 0b010001000 = .consume0 ⟨false, false⟩ ⟨true, false⟩ ⟨false, false⟩ false := by decide
theorem test_decode_consume1 : decodeWord 0b101011000 = .consume1 ⟨false, false⟩ ⟨true, true⟩ ⟨false, true⟩ false := by decide

/-! ## One cycle: the vectors of 95_test_vectors.md section 2 -/

/-- A state in the notation of 95_test_vectors.md section 0, with nothing listed on the ports. -/
def sigma (sync0 sync1 : List Bool) (prev pend : Pair Bool) (engine : Engine) (flag : Pair Bool) (cycle : Nat := 0)
    (settle : Nat := 4) (priority : Channel := .arm) : State :=
  { syncStages := sync0.length, settleCycles := settle, priority := priority, sync := ⟨sync0, sync1⟩, prev := prev, pend := pend,
    flag := flag, engine := engine, inputs := [], cycle := cycle }

/-- The state after one step with a word on the ports. -/
def after (s : State) (w : IW) : Option State :=
  match step (withTrace s [w]) with
  | .next t => some t
  | _ => none

def lo : List Bool := [false, false]
def hi : List Bool := [true, true]
def falling : List Bool := [false, true]
def rising : List Bool := [true, false]
def oo : Pair Bool := ⟨false, false⟩
def io : Pair Bool := ⟨true, false⟩
def oi : Pair Bool := ⟨false, true⟩
def ii : Pair Bool := ⟨true, true⟩
def ind (m n : Nat) : Engine := .independent ⟨m, n⟩

/-- SYNC, V-E1. -/
theorem test_sync_loads_stage0 :
    after (sigma lo lo oo oo (ind 0 0) oo) 0x002 = some (sigma rising lo oo oo (ind 0 0) oo 1) := by decide
/-- SYNC with one stage, V-E10. -/
theorem test_sync_one_stage :
    after (sigma [true] [false] oo oo (ind 0 0) oo) 0x00A = some (sigma [true] [false] io io (ind 0 0) oo 1) := by decide
/-- RESET, V-E2. -/
theorem test_reset_abandons_windows :
    after (sigma falling hi oo ii (ind 3 1) ii) 0x0AB = some (sigma rising falling ii oo (ind 0 0) oo 1) := by decide
/-- RESET of a shared engine, by hand from 70_reset_and_hazards.md R85. -/
theorem test_reset_shared :
    after (sigma lo hi oi oo (.shared 2 .react) oi) 0x001 = some (sigma lo falling ii oo (.shared 0 .arm) oo 1) := by decide
/-- RUN: a held button at the first run cycle is no edge, V-E11. -/
theorem test_run_held_button :
    after (sigma hi lo ii oo (ind 0 0) oo) 0x00A = some (sigma hi lo io oo (ind 0 0) oo 1) := by decide
/-- RUN: the shared engine re-samples its owner, V-W16. -/
theorem test_run_shared_accept :
    after (sigma lo hi oi oo (.shared 1 .react) oo) 0x018 = some (sigma lo falling oi oo (.shared 0 .react) oi 1) := by decide
/-- ENABLE0: a window starts on the old edge and the new one stays pending, V-E7. -/
theorem test_enable0_start_with_rise :
    after (sigma hi lo oo io (ind 0 0) oo) 0x00A = some (sigma hi lo io io (ind 4 0) oo 1) := by decide
/-- ENABLE0: an accepted re-sample, V-W5. -/
theorem test_enable0_accept :
    after (sigma hi lo io oo (ind 1 0) oo) 0x00A = some (sigma hi lo io oo (ind 0 0) io 1) := by decide
/-- MASK0: no start, the edge stays pending, V-W2. -/
theorem test_mask0_no_start :
    after (sigma lo lo oo io (ind 0 0) oo) 0x000 = some (sigma lo lo oo io (ind 0 0) oo 1) := by decide
/-- MASK0: a running window goes on, V-W8. -/
theorem test_mask0_window_goes_on :
    after (sigma hi lo io oo (ind 2 0) oo) 0x000 = some (sigma falling lo io oo (ind 1 0) oo 1) := by decide
/-- ENABLE1: a stale edge starts a window, V-W4. -/
theorem test_enable1_stale_start :
    after (sigma lo hi oi oi (ind 0 0) oo) 0x01C = some (sigma lo hi oi oo (ind 0 4) oo 1) := by decide
/-- ENABLE1: arbitration by PRIORITY = 1, V-W14. -/
theorem test_enable1_arbitration :
    after (sigma hi hi ii ii (.shared 0 .arm) oo 0 4 .react) 0x018 =
      some (sigma falling falling ii io (.shared 4 .react) oo 1 4 .react) := by decide
/-- MASK1: the edge of a masked channel is latched, V-E9. -/
theorem test_mask1_latches :
    after (sigma lo hi oo oo (ind 0 0) oo) 0x004 = some (sigma lo hi oi oi (ind 0 0) oo 1) := by decide
/-- MASK1: a re-sample that reads 0 rejects and does not start in the same cycle, V-W11. -/
theorem test_mask1_reject :
    after (sigma lo lo oo io (ind 1 0) oo) 0x008 = some (sigma lo lo oo io (ind 0 0) oo 1) := by decide
/-- CLEAR_PENDING0: the new edge survives, V-E6. -/
theorem test_clearPending0_new_edge :
    after (sigma hi lo oo io (ind 0 0) oo) 0x02A = some (sigma hi lo io io (ind 0 0) oo 1) := by decide
/-- CLEAR_PENDING0 during a window, V-W9. -/
theorem test_clearPending0_in_window :
    after (sigma hi lo io io (ind 2 0) oo) 0x028 = some (sigma falling lo io oo (ind 1 0) oo 1) := by decide
/-- CLEAR_PENDING1: `UNMASK1` suppresses the stale start, program P3 cycle 8. -/
theorem test_clearPending1_unmask :
    after (sigma lo lo oo oi (ind 0 0) oo) 0x158 = some (sigma lo lo oo oo (ind 0 0) oo 1) := by decide
/-- CONSUME0, V-F2. -/
theorem test_consume0_clears :
    after (sigma lo lo oo oo (ind 0 0) io) 0x088 = some (sigma lo lo oo oo (ind 0 0) oo 1) := by decide
/-- CONSUME0 acts on its own channel only, V-F6. -/
theorem test_consume0_own_channel :
    after (sigma lo lo oo oo (ind 0 0) ii) 0x080 = some (sigma lo lo oo oo (ind 0 0) oi 1) := by decide
/-- CONSUME1 with an accepted re-sample: set dominates, V-F3. -/
theorem test_consume1_set_dominates :
    after (sigma lo hi oi oo (ind 0 1) oi) 0x114 = some (sigma lo hi oi oo (ind 0 0) oi 1) := by decide
/-- CONSUME1 with the flag at 0 does not block a new set, V-F7. -/
theorem test_consume1_new_set :
    after (sigma lo hi oi oo (ind 0 1) oo) 0x114 = some (sigma lo hi oi oo (ind 0 0) oi 1) := by decide
/-- The outputs of V-W17: `busy` shows only the owner. -/
theorem test_outputs_shared :
    outputs (sigma hi hi ii io (.shared 3 .react) oo) = { edgeFlag := 0b00, edgePending := 0b01, busy := 0b10 } := by decide
/-- The host's word on the ports of the reset state runs as the first cycle. -/
theorem test_withFetchWord_runs :
    step (State.reset.withFetchWord 16 0x00A) = .next (sigma rising lo oo oo (ind 0 0) oo 1) := by rfl

/-! ## Witnesses: states and operands that meet the hypotheses of the statements, clause by clause -/

/-- Words by their fields. -/
def word (w : IW) : Inputs := Ports.ofWord w

/-- A block of the given build right after reset. -/
def block (n m : Nat) (shared : Bool) : State := State.afterReset ⟨n, m, shared, .arm⟩

theorem witness_StepRunsTheDecodedInstruction :
    (withTrace State.reset [0x00A]).params.wellFormed = true ∧
    decode (portsNow (withTrace State.reset [0x00A])) = .ok (.enable0 io false oo oo) := by decide
theorem witness_StepRunsEveryRowThatApplies :
    State.reset.params.wellFormed = true ∧ Instr.mask1 io true oo oo ∈ decodeAll 0x00A := by decide
theorem witness_DecodeAndEncodeAgree : Instr.sync false io io oo oo ∈ decodeAll 0x00A ∧
    encode (.sync false io io oo oo) = 0x00A := by decide
theorem witness_RowsThatApplyToAWord : (0x1FF : IW).getLsbD 0 = true ∧ (0x1FE : IW).getLsbD 0 = false := by decide
theorem witness_UndefinedPortIsRefused :
    let p : PortSample := { (word 0).drive with consume := ⟨.low, .highZ⟩ }
    State.reset.params.wellFormed = true ∧ ({ State.reset with inputs := [p] } : State).inputs.head? = some p ∧
    (p.get (.consume .react)).bit = none := by decide
theorem witness_IllegalParametersAreRefused :
    ({ State.reset with settleCycles := 0 } : State).settleCycles = 0 ∧
    (1 ≤ (1 : Nat) ∧ (1 : Nat) ≤ 1 ∧ BuildRequest.priority ⟨1, 1, true, 1⟩ ≤ 1) ∧ 2 ≤ BuildRequest.priority ⟨2, 4, true, 2⟩ := by decide
theorem witness_EveryWordStepsToExactlyOneState : (block 1 1 true).wf = true := by decide
theorem witness_StepKeepsWellFormedStates : (withTrace State.reset [0x00A]).wf = true ∧
    step (withTrace State.reset [0x00A]) = .next (sigma rising lo oo oo (ind 0 0) oo 1) := ⟨by decide, rfl⟩
theorem witness_ResetStateIsWellFormed :
    Params.wellFormed ⟨1, 1, true, .react⟩ = true ∧ Params.wellFormed ⟨2, 4, false, .arm⟩ = true := by decide
theorem witness_CounterWidthIsLeast : 1 ≤ (1 : Nat) ∧ (sigma lo lo oo oo (ind 4 4) oo).wf = true := by decide
theorem witness_ResetCycleWritesTheResetValues :
    (sigma lo lo oo oo (ind 4 1) oo).engine = .independent ⟨4, 1⟩ ∧
    (sigma lo lo oo oo (.shared 4 .react) oo).engine = .shared 4 .react := by decide
theorem witness_CommandRowsAreTheComposedCycle :
    (Instr.mask1 io true oo oo).inputs.rst = false ∧ (Instr.sync false io io oo oo).inputs.rst = false := by decide
theorem witness_PendingLatchCapturesRawEdges :
    (Instr.clearPending0 io io false oo).inputs.rst = false ∧ rise (sigma hi lo oo io (ind 0 0) oo) .arm = true := by decide
theorem witness_SameCycleEvents_pending :
    let ι : Inputs := { rst := false, btnRaw := io, en := io, clrPend := oo, consume := oo }
    rise (sigma hi lo oo io (ind 0 0) oo) .arm = true ∧ startsWindow ι (sigma hi lo oo io (ind 0 0) oo) .arm = true ∧
    io.get .arm = true ∧ (sigma hi lo oo io (ind 0 0) oo).pend.get .arm = true ∧
    windowCount (sigma hi lo oo io (ind 0 0) oo) .arm = 0 := by decide
theorem witness_SameCycleEvents_resample :
    resampleReads (sigma hi lo io oo (ind 1 0) oo) .arm = true ∧ io.get .arm = true ∧ oo.get .arm = false ∧
    windowCount (sigma hi lo io oo (ind 1 0) oo) .arm = 1 := by decide
theorem witness_ClearPending0 :
    windowCount (sigma hi lo io io (ind 0 0) oo) .arm = 0 ∧ windowCount (sigma hi lo io io (ind 1 0) oo) .arm ≠ 0 ∧
    (sigma hi lo io io (ind 1 0) oo).engine.isShared = false := by decide
theorem witness_ClearPending1 :
    windowCount (sigma lo hi oi oi (ind 0 0) oo) .react = 0 ∧ windowCount (sigma lo hi oi oi (ind 0 4) oo) .react ≠ 0 ∧
    (sigma lo hi oi oi (ind 0 4) oo).engine.isShared = false := by decide
theorem witness_EnableAndMask0 :
    startsWindow { rst := false, btnRaw := io, en := ⟨true, false⟩, clrPend := oo, consume := oo } (sigma hi lo io io (ind 0 0) oo) .arm = true ∧
    ((sigma hi lo io oo (ind 0 0) oo).pend.arm && !oo.arm) = false ∧ windowCount (sigma hi lo io io (ind 1 0) oo) .arm ≠ 0 := by decide
theorem witness_EnableAndMask1 :
    startsWindow { rst := false, btnRaw := oi, en := ⟨false, true⟩, clrPend := oo, consume := oo }
      (sigma lo hi oi oi (.shared 0 .arm) oo) .react = true ∧
    ((sigma lo hi oi oo (ind 0 0) oo).pend.react && !oo.react) = false ∧
    windowCount (sigma lo hi oi oi (.shared 1 .react) oo) .react ≠ 0 := by decide
theorem witness_UnmaskDutyDiscardsStaleEdgeAndFlag :
    let i : Instr := .consume1 oo ii oi false
    i.inputs.rst = false ∧ (word 0x008).en.react = false ∧ i.inputs.en.react = true ∧ unmaskDuty (word 0x008) i.inputs = true := by
  decide
theorem witness_IndependentEngine :
    let s := sigma lo lo oo io (ind 0 2) oo
    s.engine = .independent ⟨0, 2⟩ ∧ (⟨0, 2⟩ : Pair Nat).get .arm = 0 ∧ s.pend.get .arm = true ∧ io.get .arm = true ∧
    oo.get .arm = false ∧ 2 ≤ (⟨0, 2⟩ : Pair Nat).get .react ∧ (s.pend.get .arm && oo.get .arm && !oo.get .arm) = false := by decide
theorem witness_IndependentReSample :
    let s := sigma hi lo io oo (ind 1 0) oo
    s.engine = .independent ⟨1, 0⟩ ∧ (⟨1, 0⟩ : Pair Nat).get .arm = 1 ∧ level s .arm = true ∧
    level (sigma lo lo io oo (ind 1 0) oo) .arm = false := by decide
theorem witness_SharedEngineArbitrates :
    let s := sigma hi hi ii ii (.shared 0 .react) oo
    s.engine = .shared 0 .react ∧ (s.pend.get s.priority && ii.get s.priority && !oo.get s.priority) = true ∧
    (s.pend.get s.priority && oi.get s.priority && !oo.get s.priority) = false ∧
    (s.pend.get s.priority.other && oi.get s.priority.other && !oo.get s.priority.other) = true ∧
    (s.pend.get s.priority.other && oo.get s.priority.other && !oo.get s.priority.other) = false := by decide
theorem witness_SharedEngineCounts :
    (sigma hi hi ii ii (.shared 1 .react) oo).engine = .shared 1 .react ∧ (1 : Nat) ≠ 0 := by decide
theorem witness_RunningWindowIgnoresTheInputs :
    (Instr.enable0 io false oo oo).inputs.rst = false ∧ (Instr.clearPending0 oo oo true ii).inputs.rst = false ∧
    windowCount (sigma hi hi ii ii (.shared 4 .arm) oo) .arm ≠ 0 ∧
    (sigma hi hi ii ii (.shared 4 .arm) oo).engine = .shared 4 .arm := by decide
theorem witness_ChannelsAreSeparate_independent :
    let s := sigma hi lo io io (ind 1 0) oo
    let s' := sigma hi hi ii ii (ind 1 4) oi
    s.params = s'.params ∧ SameChannelInputs .arm (Instr.enable0 io false oo oo).inputs (Instr.enable0 ii true oi oi).inputs ∧
    SameChannel .arm s s' ∧ s.engine.isShared = false ∧ windowCount s .arm = windowCount s' .arm := by
  refine ⟨by decide, ⟨by decide, by decide, by decide, by decide, by decide⟩, ⟨by decide, by decide, by decide, by decide⟩, by decide,
    by decide⟩
theorem witness_ChannelsAreSeparate_shared :
    let s := sigma hi lo io io (.shared 0 .arm) oo
    let s' := sigma hi hi ii ii (.shared 0 .arm) oi
    s.params = s'.params ∧ SameChannelInputs .arm (Instr.enable0 io false oo oo).inputs (Instr.enable0 ii true oi oi).inputs ∧
    SameChannel .arm s s' ∧ s.engine.isShared = true ∧ s.engine = s'.engine ∧
    startsWindow (Instr.enable0 io false oo oo).inputs s .arm = startsWindow (Instr.enable0 ii true oi oi).inputs s' .arm := by
  refine ⟨by decide, ⟨by decide, by decide, by decide, by decide, by decide⟩, ⟨by decide, by decide, by decide, by decide⟩, by decide,
    by decide, by decide⟩
theorem witness_OutputsAreTheRegisters :
    (sigma hi hi ii ii (.shared 1 .react) oo).engine = .shared 1 .react ∧ (sigma hi hi ii ii (ind 0 4) oo).engine = .independent ⟨0, 4⟩ := by
  decide
theorem witness_DerivedConstants : (1 : Nat) ≠ 0 := by decide

/-! Witnesses of the statements over runs: runs of a small block from its reset state. -/

/-- The input trace that drives the given words and then the last one for ever. -/
def driving : List IW → IW → Nat → Inputs
  | [], last, _ => word last
  | w :: _, _, 0 => word w
  | _ :: ws, last, t + 1 => driving ws last t

theorem witness_LevelIsTheLine : IsRun (runFrom (block 2 4 false) (driving [] 0x00A)) (driving [] 0x00A) := runFrom_isRun _ rfl
theorem witness_CompleteResetFixesTheSynchroniser :
    IsRun (runFrom (block 2 4 false) (driving [0x003] 0x00A)) (driving [0x003] 0x00A) ∧ ResetCyclesEnding (driving [0x003] 0x00A) 1 0 ∧
    1 ≤ (1 : Nat) ∧ (0 : Nat) < 1 ∧ 1 < (block 2 4 false).syncStages := by
  refine ⟨runFrom_isRun _ rfl, ⟨by decide, fun t ht _ => ?_⟩, by decide, by decide, by decide⟩
  obtain rfl : t = 0 := by omega
  rfl
theorem witness_CompleteResetForgetsThePast :
    let ι := driving [0x001] 0x00A
    let s := block 1 4 false
    let s' : State := { block 1 4 false with flag := ii, engine := ind 3 9, sync := ⟨[true], [true]⟩ }
    IsRun (runFrom s ι) ι ∧ IsRun (runFrom s' ι) ι ∧ s.params = s'.params ∧ ResetCyclesEnding ι s.syncStages 0 := by
  refine ⟨runFrom_isRun _ rfl, runFrom_isRun _ rfl, rfl, ⟨by decide, fun t ht _ => ?_⟩⟩
  obtain rfl : t = 0 := by omega
  rfl
theorem witness_ButtonHeldThroughReset_held :
    let ι := driving [0x003, 0x003] 0x00A
    IsRun (runFrom (block 2 4 false) ι) ι ∧ ResetCyclesEnding ι (block 2 4 false).syncStages 1 ∧
    ∀ t, 1 + 1 ≤ t + (block 2 4 false).syncStages → (ι t).btnRaw.get .arm = true := by
  refine ⟨runFrom_isRun _ rfl, ⟨by decide, fun t ht _ => ?_⟩, fun t _ => ?_⟩
  · obtain rfl | rfl : t = 0 ∨ t = 1 := by omega
    · rfl
    · rfl
  · match t with
    | 0 => rfl
    | 1 => rfl
    | _ + 2 => rfl
theorem witness_ButtonHeldThroughReset_pressed :
    let ι := driving [0x001, 0x003] 0x00A
    IsRun (runFrom (block 2 4 false) ι) ι ∧ ResetCyclesEnding ι (block 2 4 false).syncStages 1 ∧
    1 + 1 < 0 + 1 + (block 2 4 false).syncStages ∧ 0 + 1 ≤ 1 ∧ (ι 0).btnRaw.get .arm = false ∧ (ι (0 + 1)).btnRaw.get .arm = true ∧
    NoResetFromTo ι (1 + 1) (0 + 1 + (block 2 4 false).syncStages) := by
  refine ⟨runFrom_isRun _ rfl, ⟨by decide, fun t ht _ => ?_⟩, by decide, by decide, rfl, rfl, fun t ht _ => ?_⟩
  · obtain rfl | rfl : t = 0 ∨ t = 1 := by omega
    · rfl
    · rfl
  · obtain ⟨k, rfl⟩ : ∃ k, t = k + 2 := ⟨t - 2, by omega⟩
    rfl
/-- A block of one stage and a window of one cycle, with a pending arm edge and a second one about to be captured. -/
def pressed : State := { block 1 1 false with sync := ⟨[true], [false]⟩, prev := oo, pend := io }
theorem witness_WindowRunsForSettleCycles :
    let ι := driving [] 0x00A
    IsRun (runFrom pressed ι) ι ∧ startsWindow (ι 0) (runFrom pressed ι 0) .arm = true ∧ NoResetFromTo ι 0 (0 + pressed.settleCycles) :=
  ⟨runFrom_isRun _ rfl, rfl, fun _ _ _ => rfl⟩
theorem witness_StartsOnOneEngineAreFarApart :
    let ι := driving [] 0x00A
    IsRun (runFrom pressed ι) ι ∧ 0 < 2 ∧ NoResetFromTo ι 0 2 ∧ startsWindow (ι 0) (runFrom pressed ι 0) .arm = true ∧
    startsWindow (ι 2) (runFrom pressed ι 2) .arm = true :=
  ⟨runFrom_isRun _ rfl, by decide, fun _ _ _ => rfl, rfl, rfl⟩
theorem witness_ClearDoesNotReachIntoTheSynchroniser :
    let ι := driving [0x028] 0x02A
    IsRun (runFrom (block 1 1 false) ι) ι ∧ (ι 0).rst = false ∧ (ι 0).clrPend.get .arm = true ∧ (ι 0).btnRaw.get .arm = false ∧
    (ι (0 + 1)).btnRaw.get .arm = true ∧ NoResetFromTo ι (0 + 1) (0 + 1 + 1) := by
  refine ⟨runFrom_isRun _ rfl, rfl, rfl, rfl, rfl, fun t ht _ => ?_⟩
  obtain ⟨k, rfl⟩ : ∃ k, t = k + 1 := ⟨t - 1, by omega⟩
  rfl
theorem witness_LinesShowNoEarlier :
    let ι := driving [0x008] 0x00A
    let ι' := driving [0x008] 0x008
    IsRun (runFrom (block 1 1 false) ι) ι ∧ IsRun (runFrom (block 1 1 false) ι') ι' ∧ (∀ u, u < 1 → ι u = ι' u) ∧
    (∀ u, (ι u).rst = (ι' u).rst ∧ (ι u).en = (ι' u).en ∧ (ι u).clrPend = (ι' u).clrPend ∧ (ι u).consume = (ι' u).consume) := by
  refine ⟨runFrom_isRun _ rfl, runFrom_isRun _ rfl, fun u hu => ?_, fun u => ?_⟩
  · obtain rfl : u = 0 := by omega
    rfl
  · match u with
    | 0 => exact ⟨rfl, rfl, rfl, rfl⟩
    | _ + 1 => exact ⟨rfl, rfl, rfl, rfl⟩
theorem witness_CleanPress_independent :
    let ι := driving [0x008] 0x00A
    let σ := runFrom (block 1 1 false) ι
    IsRun σ ι ∧ (ι 0).btnRaw.get .arm = false ∧ (ι 1).btnRaw.get .arm = true ∧ NoResetFromTo ι 0 (0 + latencyCycles 1 1) ∧
    (σ 2).pend.get .arm = false ∧ (ι 3).en.get .arm = true ∧ (ι 3).clrPend.get .arm = false ∧ (σ 3).engine = ind 0 0 ∧
    (ι 3).btnRaw.get .arm = true := by
  refine ⟨runFrom_isRun _ rfl, rfl, rfl, fun t _ _ => ?_, rfl, rfl, rfl, rfl, rfl⟩
  match t with
  | 0 => rfl
  | _ + 1 => rfl
theorem witness_CleanPress_shared :
    let ι := driving [0x010] 0x014
    let σ := runFrom (block 1 1 true) ι
    IsRun σ ι ∧ (ι 0).btnRaw.get .react = false ∧ (ι 1).btnRaw.get .react = true ∧ NoResetFromTo ι 0 (0 + latencyCycles 1 1) ∧
    (σ 2).pend.get .react = false ∧ (ι 3).en.get .react = true ∧ (ι 3).clrPend.get .react = false ∧ (σ 3).engine = .shared 0 .arm ∧
    ((σ 3).pend.get .arm && (ι 3).en.get .arm && !(ι 3).clrPend.get .arm) = false := by
  refine ⟨runFrom_isRun _ rfl, rfl, rfl, fun t _ _ => ?_, rfl, rfl, rfl, rfl, rfl⟩
  match t with
  | 0 => rfl
  | _ + 1 => rfl
theorem witness_CleanPress_flagAlreadyUp :
    let σ := runFrom ({ block 1 1 false with flag := io }) (driving [0x008] 0x00A)
    0 + 1 + 1 + 1 ≤ (3 : Nat) ∧ (3 : Nat) < 0 + latencyCycles 1 1 ∧ (σ 3).pend.get .arm = true ∧ (σ (3 + 1)).flag.get .arm = true := by
  exact ⟨by decide, by decide, rfl, rfl⟩
theorem witness_BounceTrain :
    let ι := driving [0x00A] 0x008
    let σ := runFrom ({ block 1 1 false with flag := io }) ι
    IsRun σ ι ∧ (ι 0).btnRaw.get .arm = true ∧ (∀ u, 0 ≤ u → (ι u).rst = false) ∧ windowCount (σ (0 + 1)) .arm = 0 ∧
    (∀ u, 0 + 1 + 1 ≤ u → (ι u).btnRaw.get .arm = false) ∧ startsWindow (ι 2) (σ 2) .arm = true ∧
    startsWindow (ι (0 + 1)) (σ (0 + 1)) .arm = false ∧ (σ 2).flag.get .arm = true := by
  refine ⟨runFrom_isRun _ rfl, rfl, fun u _ => ?_, rfl, fun u hu => ?_, rfl, rfl, rfl⟩
  · match u with
    | 0 => rfl
    | _ + 1 => rfl
  · obtain ⟨k, rfl⟩ : ∃ k, u = k + 1 := ⟨u - 1, by omega⟩
    rfl
theorem witness_FlagRisesOnlyAfterAFullWindow :
    let ι := driving [0x001, 0x008] 0x00A
    let σ := runFrom (block 1 1 false) ι
    IsRun σ ι ∧ (ι 0).rst = true ∧ 0 < 5 ∧ (σ 5).flag.get .arm = false ∧ (σ (5 + 1)).flag.get .arm = true :=
  ⟨runFrom_isRun _ rfl, rfl, by decide, rfl, rfl⟩
theorem witness_PowerUpDrawsFitTheirRegisters : (BuildRequest.withDefaults 1).wellFormed = true := by decide
/-- Counters of 7, above `SETTLE_CYCLES` = 4 and the greatest of `CNT_W` = 3 bits, in both engine modes. -/
theorem witness_PowerUpMayDrawAnyRegisters :
    let t := sigma rising hi oo ii (ind 7 0) ii
    let u := sigma rising hi oo ii (.shared 7 .react) ii
    (∀ c, (t.sync.get c).length = t.syncStages) ∧ t.engine = .independent ⟨7, 0⟩ ∧ (∀ c, Pair.get ⟨7, 0⟩ c < 2 ^ cntW t.settleCycles) ∧
    (∀ c, (u.sync.get c).length = u.syncStages) ∧ u.engine = .shared 7 .react ∧ 7 < 2 ^ cntW u.settleCycles ∧
    State.reset.params = t.params ∧ (block 2 4 true).params = u.params ∧ (BuildRequest.withDefaults 4).wellFormed = true ∧
    (BuildRequest.withDefaults 4).sharedSettle = t.engine.isShared := by
  refine ⟨fun c => by cases c <;> rfl, rfl, fun c => by cases c <;> decide, fun c => by cases c <;> rfl, ?_⟩
  decide
theorem witness_PseudoCommandLinesNameWords : parseLine "E0+B1 x3".toList = some [0x00C, 0x00C, 0x00C] := by decide
theorem witness_BootMeetsTheArmMaskingDuty : bootDuty 2 ([word 0x001] ++ [word 0x001]) (word 0x008) = true := by decide
theorem witness_ArmUnmaskingDiscardsStaleEdgeAndFlag :
    let i : Instr := .consume0 oo io io false
    unmasksArm (word 0x000) i.inputs = true ∧ armMaskedOutsideIdleDuty .idle (word 0x000) i.inputs = true := by decide
/-- 70_reset_and_hazards.md R92: an unmasking without the clear and the consume breaks the duty. -/
theorem test_unmask_arm_without_clear : armMaskedOutsideIdleDuty .idle (word 0x000) (word 0x008) = false := by decide
/-- The head of program P3's words (95_test_vectors.md line 219), `UNMASK1` as the text has it. -/
theorem test_trace_P3 : parseCommandTrace 2 "R+E0 x2\nE0+B1 x3\nE0 x3\nUNMASK1\nE0+E1 x3".toList =
    some [0x009, 0x009, 0x00C, 0x00C, 0x00C, 0x008, 0x008, 0x008, 0x158, 0x018, 0x018, 0x018] := by decide

end Sys2Proof.Machine.Tests
end

/-! PROOFS. The cycles of a run, seen from one channel: what the registers of the state after cycle t are, in the terms of the
claims (`startsWindow`, `windowCount`, `resampleReads`). Every proof about runs goes through these lemmas. -/

namespace Sys2Proof.Machine

section Run

variable {σ : Nat → State} {ι : Nat → Inputs}

/-- No step of a run changes the parameters (log 3). -/
theorem IsRun.params_eq (h : IsRun σ ι) (t : Nat) : (σ t).params = (σ 0).params := by
  induction t with
  | zero => rfl
  | succ t ih =>
    rw [(h.succ t).2, cycleOf_params]
    exact ih

theorem IsRun.settleCycles_eq (h : IsRun σ ι) (t : Nat) : (σ t).settleCycles = (σ 0).settleCycles :=
  congrArg Params.settleCycles (h.params_eq t)

/-- A reset cycle of a run (70_reset_and_hazards.md R85). -/
theorem IsRun.succ_of_reset (h : IsRun σ ι) {t : Nat} (hr : (ι t).rst = true) :
    σ (t + 1) = resetCycle (ι t) (nextCycle (σ t)) := by
  rw [(h.succ t).2, cycleOf, if_pos hr]

/-- A cycle of a run without reset (43_cycle_step.md R68). -/
theorem IsRun.succ_of_no_reset (h : IsRun σ ι) {t : Nat} (hr : (ι t).rst = false) :
    σ (t + 1) = runCycle (ι t) (nextCycle (σ t)) := by
  rw [(h.succ t).2, cycleOf, hr]
  rfl

theorem IsRun.windowCount_of_reset (h : IsRun σ ι) {t : Nat} (hr : (ι t).rst = true) (c : Channel) :
    windowCount (σ (t + 1)) c = 0 := by
  rw [h.succ_of_reset hr, windowCount_resetCycle]

theorem IsRun.windowCount_of_no_reset (h : IsRun σ ι) {t : Nat} (hr : (ι t).rst = false) (c : Channel) :
    windowCount (σ (t + 1)) c =
      if startsWindow (ι t) (σ t) c = true then (σ 0).settleCycles else windowCount (σ t) c - 1 := by
  rw [h.succ_of_no_reset hr, windowCount_runCycle, nextCycle_settleCycles, h.settleCycles_eq t]
  rfl

theorem IsRun.flag_of_reset (h : IsRun σ ι) {t : Nat} (hr : (ι t).rst = true) (c : Channel) :
    (σ (t + 1)).flag.get c = false := by
  rw [h.succ_of_reset hr, resetCycle_flag]

theorem IsRun.flag_of_no_reset (h : IsRun σ ι) {t : Nat} (hr : (ι t).rst = false) (c : Channel) :
    (σ (t + 1)).flag.get c = (resampleReads (σ t) c || ((σ t).flag.get c && !(ι t).consume.get c)) := by
  rw [h.succ_of_no_reset hr, runCycle_flag, accept_eq_resampleReads]
  rfl

/-- A flag rises only in a run cycle whose re-sample reads 1 (42_event_flag.md R60). -/
theorem IsRun.resample_of_flag_rise (h : IsRun σ ι) {t : Nat} {c : Channel} (hlow : (σ t).flag.get c = false)
    (hhigh : (σ (t + 1)).flag.get c = true) : (ι t).rst = false ∧ resampleReads (σ t) c = true := by
  cases hr : (ι t).rst with
  | true => rw [h.flag_of_reset hr] at hhigh; cases hhigh
  | false =>
    rw [h.flag_of_no_reset hr, hlow] at hhigh
    exact ⟨rfl, by simpa using hhigh⟩

theorem NoResetFromTo.succ {v t : Nat} (h : NoResetFromTo ι v t) (hr : (ι (t + 1)).rst = false) :
    NoResetFromTo ι v (t + 1) := by
  intro x hv hx
  obtain hx | rfl := Nat.le_succ_iff.mp hx
  · exact h x hv hx
  · exact hr

end Run

/-- A window starts only for a pending edge (41_settle_window.md R50). -/
theorem pend_of_startsWindow {ι : Inputs} {s : State} {c : Channel} (h : startsWindow ι s c = true) :
    s.pend.get c = true := by
  unfold startsWindow at h
  split at h
  next => simp only [Bool.and_eq_true] at h; exact h.2.1.1
  next => simp only [Bool.and_eq_true] at h; exact h.1.2.1.1

/-- A re-sample that reads 1 is the last cycle of its window, with the level at 1 (41_settle_window.md R53). -/
theorem resampleReads_iff (s : State) (c : Channel) : resampleReads s c = true ↔ windowCount s c = 1 ∧ level s c = true := by
  rw [resampleReads, Bool.and_eq_true, decide_eq_true_iff]

/-! ## A running window has a start (O50) -/

/-- The window that runs for channel c after cycle t started in cycle v: its counter is what `SETTLE_CYCLES` has come down to
since, and no reset stood in between. -/
def WindowStartedAt (σ : Nat → State) (ι : Nat → Inputs) (c : Channel) (v t : Nat) : Prop :=
  startsWindow (ι v) (σ v) c = true ∧ v + (σ 0).settleCycles = t + windowCount (σ (t + 1)) c ∧ NoResetFromTo ι v t

/-- The invariant behind O50: after a reset cycle r, a window that runs has started after r. Before the first reset this fails,
since a power-up may leave a counter that no start has loaded (10_state.md R23). -/
theorem IsRun.runningWindow_started {σ : Nat → State} {ι : Nat → Inputs} (h : IsRun σ ι) {r : Nat} (hr : (ι r).rst = true)
    (c : Channel) {t : Nat} (hrt : r ≤ t) :
    windowCount (σ (t + 1)) c ≠ 0 → ∃ v, r < v ∧ WindowStartedAt σ ι c v t := by
  induction t, hrt using Nat.le_induction with
  | base => exact fun hne => absurd (h.windowCount_of_reset hr c) hne
  | succ t hrt ih =>
    intro hne
    cases hreset : (ι (t + 1)).rst with
    | true => exact absurd (h.windowCount_of_reset hreset c) hne
    | false =>
      have hcount := h.windowCount_of_no_reset hreset c
      by_cases hstart : startsWindow (ι (t + 1)) (σ (t + 1)) c = true
      · rw [if_pos hstart] at hcount
        have hnow : NoResetFromTo ι (t + 1) (t + 1) := fun x hle hge => Nat.le_antisymm hge hle ▸ hreset
        exact ⟨t + 1, by omega, hstart, by rw [hcount], hnow⟩
      · rw [if_neg hstart] at hcount
        obtain ⟨v, hrv, hv, hleft, hnone⟩ := ih (by omega)
        exact ⟨v, hrv, hv, by omega, hnone.succ hreset⟩

/-- Settles O50: a flag rises by a re-sample alone, the re-sample is the cycle in which a window's counter is 1, and after a
reset that window has a start `SETTLE_CYCLES` cycles back. -/
theorem flagRisesOnlyAfterAFullWindow : Obligations.FlagRisesOnlyAfterAFullWindow := by
  unfold Obligations.FlagRisesOnlyAfterAFullWindow
  intro σ ι r u c hrun hr hru hlow hhigh
  obtain ⟨hreset, hread⟩ := hrun.resample_of_flag_rise hlow hhigh
  obtain ⟨hcount, hlevel⟩ := (resampleReads_iff _ _).mp hread
  obtain ⟨t, rfl⟩ : ∃ t, u = t + 1 := ⟨u - 1, by omega⟩
  obtain ⟨v, hrv, hstart, hleft, hnone⟩ := hrun.runningWindow_started hr c (t := t) (by omega) (by omega)
  rw [hcount] at hleft
  exact ⟨hlevel, v, hrv, hleft, pend_of_startsWindow hstart, hstart, hnone.succ hreset⟩

end Sys2Proof.Machine

/-! PROOFS. What a step answers, by what stands on the ports (O1, O7), and what is refused (O8). -/

namespace Sys2Proof

/-- A sample with a port that carries no bit is refused, by the name of such a port (30_encoding.md R39). -/
theorem Ports.resolve_of_undefined {p : PortSample} {q : Port} (h : (p.get q).bit = none) :
    ∃ q', (p.get q').bit = none ∧ p.resolve = .error (.undefinedLevel q') := by
  cases hfind : Port.all.find? fun q => (p.get q).bit.isNone with
  | none =>
    have hdefined := List.find?_eq_none.mp hfind q q.mem_all
    rw [h] at hdefined
    exact absurd rfl hdefined
  | some q' =>
    have hundefined := List.find?_some hfind
    exact ⟨q', Option.isNone_iff_eq_none.mp hundefined, by rw [Ports.resolve, hfind]⟩

theorem decode_of_resolve_error {p : PortSample} {e : DecodeError} (h : p.resolve = .error e) : decode p = .error e := by
  rw [decode, h]

namespace Machine

/-- The ports carry the first listed sample (log 1). -/
theorem portsNow_of_head {s : State} {p : PortSample} (h : s.inputs.head? = some p) : portsNow s = p := by
  obtain ⟨rest, hinputs⟩ := List.head?_eq_some_iff.mp h
  rw [portsNow, hinputs]

theorem step_of_decode {s : State} {i : Instr} (hp : s.params.wellFormed = true) (h : decode (portsNow s) = .ok i) :
    step s = exec i (nextCycle s) := by
  rw [step, if_pos hp, h]

theorem step_of_decode_error {s : State} {e : DecodeError} (hp : s.params.wellFormed = true)
    (h : decode (portsNow s) = .error e) : step s = .refused (.notAWord e) := by
  rw [step, if_pos hp, h]

theorem step_of_illegal {s : State} (hp : ¬ s.params.wellFormed = true) : step s = .refused .illegalConfiguration := by
  rw [step, if_neg hp]

/-- The parameters a builder asks for (00_scope.md R4 to R7), `PRIORITY` as a channel. -/
def requestedParams (b : BuildRequest) : Params :=
  { syncStages := b.syncStages, settleCycles := b.settleCycles, sharedSettle := b.sharedSettle,
    priority := if b.priority = 0 then .arm else .react }

theorem build_of_legal {b : BuildRequest} (h : b.wellFormed = true) (d : PowerUpDraw) :
    build b d = .ok (powerUp (requestedParams b) d) := by
  rw [build, if_pos h]
  rfl

theorem build_of_illegal {b : BuildRequest} (h : ¬ b.wellFormed = true) (d : PowerUpDraw) :
    build b d = .error .illegalConfiguration := by
  rw [build, if_neg h]

/-- A legal `PRIORITY` number is the index of the channel it is read as (00_scope.md R7). -/
theorem requestedParams_priority {b : BuildRequest} (h : b.priority ≤ 1) : (requestedParams b).priority.index = b.priority := by
  unfold requestedParams
  by_cases h0 : b.priority = 0
  · simp [h0, Channel.index]
  · have h1 : b.priority = 1 := by omega
    simp [h1, Channel.index]

/-- Settles O1. -/
theorem stepRunsTheDecodedInstruction : Obligations.StepRunsTheDecodedInstruction := by
  unfold Obligations.StepRunsTheDecodedInstruction
  exact fun s i hp h => step_of_decode hp h

/-- Settles O7: the first listed sample stands on the ports, and its decoding stops at a port without a bit. -/
theorem undefinedPortIsRefused : Obligations.UndefinedPortIsRefused := by
  unfold Obligations.UndefinedPortIsRefused
  intro s p q hp hhead hq
  obtain ⟨q', hq', hresolve⟩ := Ports.resolve_of_undefined hq
  have hdecode : decode (portsNow s) = .error (.undefinedLevel q') := by
    rw [portsNow_of_head hhead]
    exact decode_of_resolve_error hresolve
  exact ⟨q', hq', step_of_decode_error hp hdecode⟩

/-- Settles O8: an illegal request and an illegal state fail the check, and a legal request is built with the parameters that
`requestedParams` names. -/
theorem illegalParametersAreRefused : Obligations.IllegalParametersAreRefused := by
  unfold Obligations.IllegalParametersAreRefused
  refine ⟨fun b d hbad => build_of_illegal ?_ d, fun s hbad => step_of_illegal ?_, fun b d hn hm hp => ?_⟩
  · rw [BuildRequest.wellFormed_iff]
    omega
  · rw [params_wellFormed_iff]
    omega
  · have hlegal : b.wellFormed = true := (BuildRequest.wellFormed_iff b).mpr ⟨⟨hn, hm⟩, hp⟩
    refine ⟨_, build_of_legal hlegal d, ?_⟩
    rw [powerUp_params]
    exact ⟨(Params.wellFormed_iff _).mpr ⟨hn, hm⟩, rfl, rfl, rfl, requestedParams_priority hp⟩

end Machine

end Sys2Proof

/-! PROOFS. The state after reset (O12) and the derived constants (O39). -/

namespace Sys2Proof.Machine

section AfterReset

variable (p : Params) (c : Channel)

@[simp] theorem afterReset_prev : (State.afterReset p).prev.get c = true := by cases c <;> rfl
@[simp] theorem afterReset_pend : (State.afterReset p).pend.get c = false := by cases c <;> rfl
@[simp] theorem afterReset_flag : (State.afterReset p).flag.get c = false := by cases c <;> rfl

theorem afterReset_engine_independent {p : Params} (h : p.sharedSettle = false) :
    (State.afterReset p).engine = .independent ⟨0, 0⟩ := by simp [State.afterReset, h]

theorem afterReset_engine_shared {p : Params} (h : p.sharedSettle = true) :
    (State.afterReset p).engine = .shared 0 .arm := by simp [State.afterReset, h]

/-- The block after reset has the parameters it was built with, in both engine modes. -/
@[simp] theorem afterReset_params : (State.afterReset p).params = p := by
  obtain ⟨n, m, shared, priority⟩ := p
  cases shared <;> rfl

/-- No window runs after reset (10_state.md R22). -/
@[simp] theorem afterReset_windowCount : windowCount (State.afterReset p) c = 0 := by
  unfold windowCount
  cases h : p.sharedSettle with
  | false => rw [afterReset_engine_independent h]; cases c <;> rfl
  | true => rw [afterReset_engine_shared h]; cases c <;> rfl

/-- All output ports carry 00 after reset (10_state.md R22). -/
theorem afterReset_outputs : outputs (State.afterReset p) = { edgeFlag := 0, edgePending := 0, busy := 0 } := by
  obtain ⟨n, m, shared, priority⟩ := p
  cases shared <;> rfl

theorem afterReset_wf {p : Params} (h : p.wellFormed = true) : (State.afterReset p).wf = true := by
  have hcounts : (State.afterReset p).engine.countsAtMost p.settleCycles = true := by
    cases hs : p.sharedSettle with
    | false =>
      rw [afterReset_engine_independent hs, countsAtMost_independent]
      exact fun c => by cases c <;> exact Nat.zero_le _
    | true =>
      rw [afterReset_engine_shared hs, countsAtMost_shared]
      exact Nat.zero_le _
  rw [State.wf_iff]
  exact ⟨⟨⟨(Params.wellFormed_iff p).mp h, List.length_replicate⟩, List.length_replicate⟩, hcounts⟩

end AfterReset

/-- Settles O12: `State.reset` is the state after reset of the default build. -/
theorem resetStateIsWellFormed : Obligations.ResetStateIsWellFormed := by
  unfold Obligations.ResetStateIsWellFormed
  refine ⟨fun p hp => ?_, afterReset_wf rfl, rfl, rfl, rfl⟩
  exact ⟨afterReset_wf hp, afterReset_params p, afterReset_outputs p, afterReset_engine_independent, afterReset_engine_shared,
    fun c => ⟨afterReset_prev p c, afterReset_pend p c, afterReset_flag p c, afterReset_windowCount p c⟩⟩

end Sys2Proof.Machine

namespace Sys2Proof

/-- The latency in milliseconds, freed of its division (42_event_flag.md R67). -/
theorem latencyMilliseconds_mul_clkHz (n m : Nat) {hz : Nat} (h : hz ≠ 0) :
    latencyMilliseconds n m hz * hz = (latencyCycles n m * 1000 : Nat) :=
  div_mul_cancel₀ _ (Nat.cast_ne_zero.mpr h)

/-- The recommended `SETTLE_CYCLES` rounds up: it is the least number of cycles that covers the interval (00_scope.md R5). -/
theorem recommendedSettleCycles_le_iff (hz ms k : Nat) : recommendedSettleCycles hz ms ≤ k ↔ hz * ms ≤ 1000 * k := by
  unfold recommendedSettleCycles
  omega

/-- Settles O39. -/
theorem derivedConstants : Obligations.DerivedConstants := by
  unfold Obligations.DerivedConstants
  exact ⟨fun _ _ => rfl, fun n m _ h => latencyMilliseconds_mul_clkHz n m h, recommendedSettleCycles_le_iff, rfl, rfl⟩

end Sys2Proof

/-! PROOFS. What every cycle keeps (O11), the counters and their width (O13), and the sizes and the freedom of a power-up's
draw (O9, O51). -/

namespace Sys2Proof

/-- `CNT_W` bits hold n, and no fewer do (10_state.md R18). -/
theorem lt_two_pow_iff_cntW_le {n : Nat} (w : Nat) (hn : 1 ≤ n) : n < 2 ^ w ↔ cntW n ≤ w :=
  (Nat.log2_lt (Nat.ne_of_gt hn)).symm

theorem lt_two_pow_cntW {n : Nat} (hn : 1 ≤ n) : n < 2 ^ cntW n := (lt_two_pow_iff_cntW_le _ hn).mpr le_rfl

namespace Machine

theorem windowCount_of_independent {s : State} {cnt : Pair Nat} (h : s.engine = .independent cnt) (c : Channel) :
    windowCount s c = cnt.get c := by
  rw [windowCount, h]

theorem windowCount_of_shared {s : State} {cnt : Nat} {owner : Channel} (h : s.engine = .shared cnt owner) (c : Channel) :
    windowCount s c = if owner = c then cnt else 0 := by
  rw [windowCount, h]

/-- The registers' bound of 10_state.md R19 seen from the channels. A shared counter is its owner's window counter, so no counter
escapes. -/
theorem countsAtMost_iff_windowCount_le (s : State) (n : Nat) :
    s.engine.countsAtMost n = true ↔ ∀ c, windowCount s c ≤ n := by
  cases he : s.engine with
  | independent cnt => simp only [countsAtMost_independent, windowCount_of_independent he]
  | shared cnt owner =>
    simp only [countsAtMost_shared, windowCount_of_shared he]
    refine ⟨fun h c => ?_, fun h => by simpa using h owner⟩
    split
    · exact h
    · exact Nat.zero_le n

/-- A well-formed state in the terms of a channel: its synchroniser and its window counter. -/
theorem State.wf_iff_channels (s : State) : s.wf = true ↔
    s.params.wellFormed = true ∧ ∀ c, (s.sync.get c).length = s.syncStages ∧ windowCount s c ≤ s.settleCycles := by
  rw [State.wf_iff, ← params_wellFormed_iff, countsAtMost_iff_windowCount_le]
  constructor
  · rintro ⟨⟨⟨hp, harm⟩, hreact⟩, hcount⟩
    exact ⟨hp, fun c => ⟨by cases c <;> assumption, hcount c⟩⟩
  · rintro ⟨hp, h⟩
    exact ⟨⟨⟨hp, (h .arm).1⟩, (h .react).1⟩, fun c => (h c).2⟩

section Cycle

variable (ι : Inputs) (s : State)

/-- Both cycles shift the synchroniser (40_edge_capture.md R42). -/
@[simp] theorem cycleOf_sync : (cycleOf ι s).sync = nextSync ι s := by
  unfold cycleOf
  split <;> rfl

@[simp] theorem cycleOf_syncStages : (cycleOf ι s).syncStages = s.syncStages := congrArg Params.syncStages (cycleOf_params ι s)

@[simp] theorem cycleOf_settleCycles : (cycleOf ι s).settleCycles = s.settleCycles :=
  congrArg Params.settleCycles (cycleOf_params ι s)

theorem cycleOf_sync_length {c : Channel} (h : (s.sync.get c).length = s.syncStages) :
    ((cycleOf ι s).sync.get c).length = s.syncStages := by
  rw [cycleOf_sync, nextSync, Pair.get_ofFn]
  exact shift_length h

/-- A counter is loaded with `SETTLE_CYCLES` or goes down (10_state.md R19). -/
theorem windowCount_cycleOf_le {c : Channel} (h : windowCount s c ≤ s.settleCycles) :
    windowCount (cycleOf ι s) c ≤ s.settleCycles := by
  unfold cycleOf
  split
  · rw [windowCount_resetCycle]
    exact Nat.zero_le _
  · rw [windowCount_runCycle]
    split
    · exact le_rfl
    · exact (Nat.sub_le _ _).trans h

/-- The well-formed states are kept by the cycle of every word. -/
theorem cycleOf_wf {s : State} (h : s.wf = true) : (cycleOf ι s).wf = true := by
  obtain ⟨hp, hchannels⟩ := (State.wf_iff_channels s).mp h
  rw [State.wf_iff_channels, cycleOf_params, cycleOf_syncStages, cycleOf_settleCycles]
  refine ⟨hp, fun c => ?_⟩
  obtain ⟨hlength, hcount⟩ := hchannels c
  exact ⟨cycleOf_sync_length ι s hlength, windowCount_cycleOf_le ι s hcount⟩

end Cycle

/-- Settles O11: a step is the cycle of the word on the ports, in the environment's next cycle. -/
theorem stepKeepsWellFormedStates : Obligations.StepKeepsWellFormedStates := by
  unfold Obligations.StepKeepsWellFormedStates
  intro s t hwf hstep
  obtain ⟨-, i, -, rfl⟩ := step_next hstep
  have hnext : (nextCycle s).wf = true := hwf
  exact ⟨cycleOf_wf i.inputs hnext, cycleOf_params i.inputs (nextCycle s)⟩

/-- Settles O13: a well-formed counter is at most `SETTLE_CYCLES`, which fits. -/
theorem counterWidthIsLeast : Obligations.CounterWidthIsLeast := by
  unfold Obligations.CounterWidthIsLeast
  refine ⟨fun n w hn => lt_two_pow_iff_cntW_le w hn, by decide, by decide, by decide, fun s c hwf => ?_⟩
  obtain ⟨hp, hchannels⟩ := (State.wf_iff_channels s).mp hwf
  obtain ⟨-, hsettle⟩ := (params_wellFormed_iff s).mp hp
  exact (hchannels c).2.trans_lt (lt_two_pow_cntW hsettle)

/-! ## Power-up -/

section PowerUp

variable {p : Params} (d : PowerUpDraw)

theorem powerUp_engine_independent (h : p.sharedSettle = false) :
    (powerUp p d).engine = .independent (.ofFn fun c => powerUpCounter p.settleCycles (d.count.get c)) := by
  simp [powerUp, h]

theorem powerUp_engine_shared (h : p.sharedSettle = true) :
    (powerUp p d).engine = .shared (powerUpCounter p.settleCycles d.count.arm) d.owner := by
  simp [powerUp, h]

/-- Every counter that a power-up draws has `CNT_W` bits, in both engine modes (10_state.md R18). -/
theorem powerUp_windowCount_lt (c : Channel) : windowCount (powerUp p d) c < 2 ^ cntW p.settleCycles := by
  cases h : p.sharedSettle with
  | false =>
    rw [windowCount_of_independent (powerUp_engine_independent d h), Pair.get_ofFn]
    exact powerUpCounter_lt _ _
  | true =>
    rw [windowCount_of_shared (powerUp_engine_shared d h)]
    split
    · exact powerUpCounter_lt _ _
    · exact Nat.two_pow_pos _

theorem powerUp_sync_length (c : Channel) : ((powerUp p d).sync.get c).length = p.syncStages := by
  rw [powerUp_sync, powerUpStages_length]

theorem losePower_params (s : State) : (losePower s d).params = s.params := powerUp_params s.params d

theorem losePower_windowCount (s : State) (c : Channel) :
    windowCount (losePower s d) c = windowCount (powerUp s.params d) c := rfl

end PowerUp

/-- Settles O9: a block is built, and loses power, into `powerUp` of its parameters. -/
theorem powerUpDrawsFitTheirRegisters : Obligations.PowerUpDrawsFitTheirRegisters := by
  unfold Obligations.PowerUpDrawsFitTheirRegisters
  refine ⟨fun b d hb => ⟨_, build_of_legal hb d, fun c => ?_⟩, fun s d c => ⟨losePower_params d s, ?_, ?_⟩⟩
  · exact ⟨powerUp_windowCount_lt (p := requestedParams b) d c, powerUp_sync_length (p := requestedParams b) d c⟩
  · rw [losePower_windowCount]
    exact powerUp_windowCount_lt (p := s.params) d c
  · rw [losePower_sync]
    exact powerUp_sync_length (p := s.params) d c

/-- The counters of an engine as a power-up draws them: a shared engine's one counter draws at arm. -/
def Engine.counts : Engine → Pair Nat
  | .independent cnt => cnt
  | .shared cnt _ => ⟨cnt, 0⟩

/-- The owner as a power-up draws it; independent engines have none, and nothing reads theirs. -/
def Engine.drawnOwner : Engine → Channel
  | .independent _ => .arm
  | .shared _ owner => owner

/-- The draw that leaves the registers of t: their own contents, a synchroniser's as the number of its bits. -/
def drawOf (t : State) : PowerUpDraw :=
  { stages := .ofFn fun c => Nat.ofBits (t.sync.get c).get
    prev := t.prev
    pend := t.pend
    flag := t.flag
    count := t.engine.counts
    owner := t.engine.drawnOwner }

section DrawOf

variable {p : Params} {t : State}

theorem powerUp_drawOf_sync (h : ∀ c, (t.sync.get c).length = p.syncStages) : (powerUp p (drawOf t)).sync = t.sync := by
  refine Pair.eq_of_get fun c => ?_
  rw [powerUp_sync, drawOf, Pair.get_ofFn, ← h c, powerUpStages_ofBits]

theorem powerUp_drawOf_engine (hshared : p.sharedSettle = t.engine.isShared)
    (hind : ∀ cnt, t.engine = .independent cnt → ∀ c, cnt.get c < 2 ^ cntW p.settleCycles)
    (hsh : ∀ cnt owner, t.engine = .shared cnt owner → cnt < 2 ^ cntW p.settleCycles) :
    (powerUp p (drawOf t)).engine = t.engine := by
  cases he : t.engine with
  | independent cnt =>
    have hcount : (drawOf t).count = cnt := by rw [drawOf, he]; rfl
    rw [he] at hshared
    rw [powerUp_engine_independent _ hshared, hcount]
    exact congrArg _ (Pair.eq_of_get fun c => by rw [Pair.get_ofFn, powerUpCounter_of_lt (hind cnt he c)])
  | shared cnt owner =>
    have hcount : (drawOf t).count.arm = cnt := by rw [drawOf, he]; rfl
    have howner : (drawOf t).owner = owner := by rw [drawOf, he]; rfl
    rw [he] at hshared
    rw [powerUp_engine_shared _ hshared, hcount, howner, powerUpCounter_of_lt (hsh cnt owner he)]

/-- Whatever fits the registers of a block is left in them by a draw (10_state.md R23). The block's `PRIORITY` is no register. -/
theorem powerUp_drawOf (hstages : p.syncStages = t.syncStages) (hsettle : p.settleCycles = t.settleCycles)
    (hshared : p.sharedSettle = t.engine.isShared) (hlength : ∀ c, (t.sync.get c).length = t.syncStages)
    (hind : ∀ cnt, t.engine = .independent cnt → ∀ c, cnt.get c < 2 ^ cntW t.settleCycles)
    (hsh : ∀ cnt owner, t.engine = .shared cnt owner → cnt < 2 ^ cntW t.settleCycles) :
    SameRegisters t (powerUp p (drawOf t)) := by
  rw [← hstages] at hlength
  rw [← hsettle] at hind hsh
  exact ⟨powerUp_drawOf_sync hlength, rfl, rfl, rfl, powerUp_drawOf_engine hshared hind hsh⟩

end DrawOf

/-- Settles O51: the contents themselves are the draw. -/
theorem powerUpMayDrawAnyRegisters : Obligations.PowerUpMayDrawAnyRegisters := by
  unfold Obligations.PowerUpMayDrawAnyRegisters
  intro t hlength hind hsh
  refine ⟨fun s hs => ⟨drawOf t, ?_⟩, fun b hb hstages hsettle hshared => ⟨drawOf t, _, build_of_legal hb _, ?_⟩⟩
  · have hpowered : SameRegisters t (powerUp s.params (drawOf t)) :=
      powerUp_drawOf (congrArg Params.syncStages hs) (congrArg Params.settleCycles hs) (congrArg Params.sharedSettle hs)
        hlength hind hsh
    exact hpowered
  · exact powerUp_drawOf (p := requestedParams b) hstages hsettle hshared hlength hind hsh

end Machine

end Sys2Proof

/-! PROOFS. What a reset cycle leaves at the ports (O15), what a reset of n cycles leaves in the registers (O41), and that a
complete one leaves nothing of the state before it (O42). -/

namespace Sys2Proof.Machine

/-- `busy` is 1 exactly while the channel's window counter runs (41_settle_window.md R58). -/
theorem busy_eq_windowCount_ne_zero (s : State) (c : Channel) : busy s c = decide (windowCount s c ≠ 0) := by
  cases he : s.engine with
  | independent cnt => rw [windowCount_of_independent he, busy, he]
  | shared cnt owner =>
    rw [windowCount_of_shared he, busy, he]
    by_cases hc : owner = c <;> simp [hc]

/-- Without a flag, a pending edge or a running window all output ports carry 00. -/
theorem outputs_of_idle {s : State} (hflag : ∀ c, s.flag.get c = false) (hpend : ∀ c, s.pend.get c = false)
    (hcount : ∀ c, windowCount s c = 0) : outputs s = { edgeFlag := 0, edgePending := 0, busy := 0 } := by
  have hflag' : s.flag = ⟨false, false⟩ := Pair.eq_of_get fun c => by cases c <;> exact hflag _
  have hpend' : s.pend = ⟨false, false⟩ := Pair.eq_of_get fun c => by cases c <;> exact hpend _
  have hbusy : Pair.ofFn (busy s) = ⟨false, false⟩ :=
    Pair.eq_of_get fun c => by rw [Pair.get_ofFn, busy_eq_windowCount_ne_zero, hcount c]; cases c <;> rfl
  rw [outputs, hflag', hpend', hbusy]
  rfl

/-- Where `prev` is 1 there is no raw edge (40_edge_capture.md R45). -/
theorem rise_of_prev {s : State} {c : Channel} (h : s.prev.get c = true) : rise s c = false := by
  rw [rise, h, Bool.not_true, Bool.and_false]

theorem exec_reset (btn en clr con : Pair Bool) (s : State) :
    exec (.reset btn en clr con) s = .next (resetCycle (Instr.reset btn en clr con).inputs s) :=
  exec_eq_cycleOf (.reset btn en clr con) s

/-- Settles O15: flag, pending edge and window counter are 0, and `prev` is 1. -/
theorem blockIsIdleAfterAReset : Obligations.BlockIsIdleAfterAReset := by
  unfold Obligations.BlockIsIdleAfterAReset
  intro btn en clr con s
  refine ⟨_, exec_reset btn en clr con s, ?_⟩
  exact ⟨outputs_of_idle (resetCycle_flag s _) (resetCycle_pend s _) (windowCount_resetCycle _ s),
    fun c => rise_of_prev (resetCycle_prev s _ c)⟩

section Run

variable {σ : Nat → State} {ι : Nat → Inputs}

theorem IsRun.syncStages_eq (h : IsRun σ ι) (t : Nat) : (σ t).syncStages = (σ 0).syncStages :=
  congrArg Params.syncStages (h.params_eq t)

theorem IsRun.prev_of_reset (h : IsRun σ ι) {t : Nat} (hr : (ι t).rst = true) (c : Channel) :
    (σ (t + 1)).prev.get c = true := by
  rw [h.succ_of_reset hr, resetCycle_prev]

theorem IsRun.pend_of_reset (h : IsRun σ ι) {t : Nat} (hr : (ι t).rst = true) (c : Channel) :
    (σ (t + 1)).pend.get c = false := by
  rw [h.succ_of_reset hr, resetCycle_pend]

/-- The stages of a synchroniser after a cycle of a run, reset cycles included (40_edge_capture.md R42). -/
theorem IsRun.stage_succ (h : IsRun σ ι) (t : Nat) (c : Channel) (k : Nat) :
    ((σ (t + 1)).sync.get c)[k]? =
      if k < (σ 0).syncStages then (if k = 0 then some ((ι t).btnRaw.get c) else ((σ t).sync.get c)[k - 1]?) else none := by
  rw [(h.succ t).2, cycleOf_sync, nextSync_shifted, nextCycle_syncStages, nextCycle_sync, h.syncStages_eq t]

/-- What a stage holds stands j stages further on j cycles later. -/
theorem IsRun.stage_add (h : IsRun σ ι) (t : Nat) (c : Channel) {k j : Nat} (hk : k + j < (σ 0).syncStages) :
    ((σ (t + j)).sync.get c)[k + j]? = ((σ t).sync.get c)[k]? := by
  induction j with
  | zero => rfl
  | succ j ih =>
    have hstep := h.stage_succ (t + j) c (k + j + 1)
    rw [if_pos (by omega), if_neg (Nat.succ_ne_zero _)] at hstep
    exact hstep.trans (ih (by omega))

/-- Stage k holds the line of k cycles before the last one (40_edge_capture.md R43). -/
theorem IsRun.stage_eq_line (h : IsRun σ ι) {r k : Nat} (c : Channel) (hkr : k ≤ r) (hk : k < (σ 0).syncStages) :
    ((σ (r + 1)).sync.get c)[k]? = some ((ι (r - k)).btnRaw.get c) := by
  have hcaptured := h.stage_succ (r - k) c 0
  rw [if_pos (by omega), if_pos rfl] at hcaptured
  have hmoved := h.stage_add (r - k + 1) c (k := 0) (j := k) (by omega)
  rw [show r - k + 1 + k = r + 1 by omega, Nat.zero_add] at hmoved
  exact hmoved.trans hcaptured

theorem ResetCyclesEnding.last {n r : Nat} (h : ResetCyclesEnding ι n r) (hn : 1 ≤ n) : (ι r).rst = true :=
  h.2 r le_rfl (by omega)

end Run

/-- Settles O41: the last reset cycle alone sets the other registers, and every cycle shifts the synchroniser. -/
theorem completeResetFixesTheSynchroniser : Obligations.CompleteResetFixesTheSynchroniser := by
  unfold Obligations.CompleteResetFixesTheSynchroniser
  intro σ ι n r c hrun hreset hn
  have hlast : (ι r).rst = true := hreset.last hn
  obtain ⟨hnr, -⟩ := hreset
  refine ⟨fun k hkn hk => hrun.stage_eq_line c (by omega) hk, fun k hnk hk => ?_, hrun.prev_of_reset hlast c,
    hrun.pend_of_reset hlast c, hrun.flag_of_reset hlast c, hrun.windowCount_of_reset hlast c⟩
  have hmoved := hrun.stage_add (r + 1 - n) c (k := k - n) (j := n) (by omega)
  rwa [Nat.sub_add_cancel hnr, Nat.sub_add_cancel hnk] at hmoved

/-- A reset leaves the same engine registers in two blocks of one build, `owner` included (70_reset_and_hazards.md R85). -/
theorem idleEngine_eq_of_isShared {e e' : Engine} (h : e.isShared = e'.isShared) : idleEngine e = idleEngine e' := by
  cases e with
  | independent _ =>
    cases e' with
    | independent _ => rfl
    | shared _ _ => cases h
  | shared _ _ =>
    cases e' with
    | independent _ => cases h
    | shared _ _ => rfl

/-- The registers after a cycle depend on the parameters, the registers and the word alone (43_cycle_step.md R69): neither on
the cycle's number nor on what the environment has listed. -/
theorem SameRegisters.after_cycle {s s' : State} (ι : Inputs) (hp : s.params = s'.params) (h : SameRegisters s s') :
    SameRegisters (cycleOf ι s) (cycleOf ι s') := by
  obtain ⟨n, m, priority, sync, prev, pend, flag, engine, inputs, cycle⟩ := s
  obtain ⟨n', m', priority', sync', prev', pend', flag', engine', inputs', cycle'⟩ := s'
  obtain ⟨hsync, hprev, hpend, hflag, hengine⟩ := h
  simp only [State.params, Params.mk.injEq] at hp hsync hprev hpend hflag hengine
  obtain ⟨rfl, rfl, -, rfl⟩ := hp
  subst hsync hprev hpend hflag hengine
  unfold cycleOf
  split <;> exact ⟨rfl, rfl, rfl, rfl, rfl⟩

section TwoRuns

variable {σ σ' : Nat → State} {ι : Nat → Inputs}

/-- After a complete reset each stage holds a line of the reset, and there are no other stages (70_reset_and_hazards.md R86). -/
theorem sync_eq_after_completeReset (h : IsRun σ ι) (h' : IsRun σ' ι) (hp : (σ 0).params = (σ' 0).params) {r : Nat}
    (hr : (σ 0).syncStages ≤ r + 1) : (σ' (r + 1)).sync = (σ (r + 1)).sync := by
  have hstages : (σ' 0).syncStages = (σ 0).syncStages := (congrArg Params.syncStages hp).symm
  refine Pair.eq_of_get fun c => List.ext_getElem? fun k => ?_
  by_cases hk : k < (σ 0).syncStages
  · rw [h.stage_eq_line c (by omega) hk, h'.stage_eq_line c (by omega) (hstages.symm ▸ hk)]
  · rw [h.stage_succ r c k, h'.stage_succ r c k, hstages, if_neg hk, if_neg hk]

theorem sameRegisters_after_completeReset (h : IsRun σ ι) (h' : IsRun σ' ι) (hp : (σ 0).params = (σ' 0).params) {r : Nat}
    (hreset : ResetCyclesEnding ι (σ 0).syncStages r) : SameRegisters (σ (r + 1)) (σ' (r + 1)) := by
  obtain ⟨hone, -⟩ := (params_wellFormed_iff _).mp (h.succ 0).1
  have hlast : (ι r).rst = true := hreset.last hone
  have hengines : (σ r).params = (σ' r).params := (h.params_eq r).trans (hp.trans (h'.params_eq r).symm)
  have hsync := sync_eq_after_completeReset h h' hp hreset.1
  rw [h.succ_of_reset hlast, h'.succ_of_reset hlast] at hsync ⊢
  exact ⟨hsync, rfl, rfl, rfl, idleEngine_eq_of_isShared (congrArg Params.sharedSettle hengines).symm⟩

/-- Two runs of one build under one trace that once hold the same registers hold them in the next cycle too. -/
theorem SameRegisters.succ (h : IsRun σ ι) (h' : IsRun σ' ι) (hp : (σ 0).params = (σ' 0).params) {t : Nat}
    (hsame : SameRegisters (σ t) (σ' t)) : SameRegisters (σ (t + 1)) (σ' (t + 1)) := by
  have hparams : (nextCycle (σ t)).params = (nextCycle (σ' t)).params :=
    (h.params_eq t).trans (hp.trans (h'.params_eq t).symm)
  have hnext : SameRegisters (nextCycle (σ t)) (nextCycle (σ' t)) := hsame
  rw [(h.succ t).2, (h'.succ t).2]
  exact hnext.after_cycle (ι t) hparams

end TwoRuns

/-- Settles O42, by induction on the cycles after the reset. -/
theorem completeResetForgetsThePast : Obligations.CompleteResetForgetsThePast := by
  unfold Obligations.CompleteResetForgetsThePast
  intro σ σ' ι r hrun hrun' hp hreset t ht
  induction t, Nat.succ_le_of_lt ht using Nat.le_induction with
  | base => exact sameRegisters_after_completeReset hrun hrun' hp hreset
  | succ t hle ih => exact (ih hle).succ hrun hrun' hp

end Sys2Proof.Machine

/-! PROOFS. How late a line shows at the outputs (O47): a cycle reads the lines only into stage 0 and the synchroniser only in its
last stage, so a change of the lines passes every stage before it reaches another register. -/

namespace Sys2Proof.Machine

/-- Two words with the same bits outside `btn_raw`. -/
def SameCommands (ι ι' : Inputs) : Prop :=
  ι.rst = ι'.rst ∧ ι.en = ι'.en ∧ ι.clrPend = ι'.clrPend ∧ ι.consume = ι'.consume

/-- Every register outside the synchroniser the same in two states. -/
def AgreeBesideSync (s s' : State) : Prop :=
  s.prev = s'.prev ∧ s.pend = s'.pend ∧ s.flag = s'.flag ∧ s.engine = s'.engine

/-- The synchronised level is the last stage, read as 0 where there is none (40_edge_capture.md R43, log 10). -/
theorem level_eq_stage (s : State) (c : Channel) : level s c = (s.sync.get c)[s.syncStages - 1]?.getD false :=
  List.getD_eq_getElem?_getD

/-- The output ports carry registers outside the synchroniser alone (42_event_flag.md R63). -/
theorem AgreeBesideSync.outputs_eq {s s' : State} (h : AgreeBesideSync s s') : outputs s = outputs s' := by
  obtain ⟨-, hpend, hflag, hengine⟩ := h
  have hbusy : busy s = busy s' := funext fun c => by simp only [busy, hengine]
  rw [outputs, outputs, hflag, hpend, hbusy]

section OneCycle

variable {ι ι' : Inputs} {s s' : State}

theorem cand_congr (hι : SameCommands ι ι') (hs : AgreeBesideSync s s') : cand ι s = cand ι' s' := by
  obtain ⟨-, hen, hclr, -⟩ := hι
  obtain ⟨-, hpend, -, -⟩ := hs
  funext c
  rw [cand, cand, hpend, hen, hclr]

theorem winner_congr (hι : SameCommands ι ι') (hp : s.params = s'.params) (hs : AgreeBesideSync s s') :
    winner ι s = winner ι' s' := by
  have hpriority : s.priority = s'.priority := congrArg Params.priority hp
  rw [winner, winner, cand_congr hι hs, hpriority]

theorem served_congr (hι : SameCommands ι ι') (hp : s.params = s'.params) (hs : AgreeBesideSync s s') :
    served ι s = served ι' s' := by
  funext cnt owner
  rw [served, served, winner_congr hι hp hs]

theorem channelOp_congr (hι : SameCommands ι ι') (hp : s.params = s'.params) (hs : AgreeBesideSync s s')
    (hlevel : level s = level s') : channelOp ι s = channelOp ι' s' := by
  have hcand := cand_congr hι hs
  have hserved := served_congr hι hp hs
  obtain ⟨-, -, -, hengine⟩ := hs
  funext c
  rw [channelOp, channelOp, hengine, hserved, hcand, hlevel]

theorem nextEngine_congr (hι : SameCommands ι ι') (hp : s.params = s'.params) (hs : AgreeBesideSync s s') :
    nextEngine ι s = nextEngine ι' s' := by
  have hsettle : s.settleCycles = s'.settleCycles := congrArg Params.settleCycles hp
  have hcand := cand_congr hι hs
  have hwinner := winner_congr hι hp hs
  obtain ⟨-, -, -, hengine⟩ := hs
  cases he : s'.engine with
  | independent cnt =>
    rw [nextEngine_independent ι (hengine.trans he), nextEngine_independent ι' he, hcand, hsettle]
  | shared cnt owner =>
    rw [nextEngine_shared ι (hengine.trans he), nextEngine_shared ι' he, hcand, hwinner, hsettle]

/-- The registers outside the synchroniser follow, after a cycle, from themselves, the commands and the levels
(43_cycle_step.md R68, 70_reset_and_hazards.md R85): what else the synchroniser holds, and the lines, are not read. -/
theorem AgreeBesideSync.after_cycle (hι : SameCommands ι ι') (hp : s.params = s'.params) (hs : AgreeBesideSync s s')
    (hlevel : level s = level s') : AgreeBesideSync (cycleOf ι s) (cycleOf ι' s') := by
  have hop := channelOp_congr hι hp hs hlevel
  have hnext := nextEngine_congr hι hp hs
  obtain ⟨hrst, -, hclr, hconsume⟩ := hι
  obtain ⟨hprev, hpend, hflag, hengine⟩ := hs
  unfold cycleOf
  rw [hrst]
  split
  case isTrue => exact ⟨rfl, rfl, rfl, congrArg idleEngine hengine⟩
  case isFalse =>
    refine ⟨congrArg Pair.ofFn hlevel, Pair.eq_of_get fun c => ?_, Pair.eq_of_get fun c => ?_, hnext⟩
    · simp only [runCycle_pend, rise, start, hop, hlevel, hprev, hpend, hclr]
    · simp only [runCycle_flag, accept, hop, hflag, hconsume]

end OneCycle

section LinesDiffer

variable {σ σ' : Nat → State} {ι ι' : Nat → Inputs}

/-- Under words that are the same before cycle t, the stages from k on are the same up to the state of cycle t + k
(40_edge_capture.md R42). -/
theorem stage_eq_of_words_eq_before (h : IsRun σ ι) (h' : IsRun σ' ι') (h0 : σ 0 = σ' 0) {t : Nat}
    (hbefore : ∀ u, u < t → ι u = ι' u) (c : Channel) (u : Nat) :
    ∀ k, u ≤ t + k → ((σ u).sync.get c)[k]? = ((σ' u).sync.get c)[k]? := by
  induction u with
  | zero => intro k _; rw [h0]
  | succ u ih =>
    intro k hk
    rw [h.stage_succ, h'.stage_succ, h0]
    cases k with
    | zero => simp only [hbefore u hk, if_true]
    | succ k => simp only [Nat.succ_ne_zero, if_false, Nat.add_sub_cancel, ih k (by omega)]

/-- The levels are the same in every cycle before t + `SYNC_STAGES` (40_edge_capture.md R43). -/
theorem level_eq_of_words_eq_before (h : IsRun σ ι) (h' : IsRun σ' ι') (h0 : σ 0 = σ' 0) {t u : Nat}
    (hbefore : ∀ u, u < t → ι u = ι' u) (hu : u < t + (σ 0).syncStages) : level (σ u) = level (σ' u) := by
  funext c
  rw [level_eq_stage, level_eq_stage, h.syncStages_eq, h'.syncStages_eq, ← h0,
    stage_eq_of_words_eq_before h h' h0 hbefore c u _ (by omega)]

/-- The registers outside the synchroniser are the same up to the state of cycle t + `SYNC_STAGES`: each cycle before it reads
the same levels. -/
theorem agreeBesideSync_of_words_eq_before (h : IsRun σ ι) (h' : IsRun σ' ι') (h0 : σ 0 = σ' 0) {t : Nat}
    (hbefore : ∀ u, u < t → ι u = ι' u) (hcommands : ∀ u, SameCommands (ι u) (ι' u)) (u : Nat) :
    u ≤ t + (σ 0).syncStages → AgreeBesideSync (σ u) (σ' u) := by
  induction u with
  | zero => intro _; rw [h0]; exact ⟨rfl, rfl, rfl, rfl⟩
  | succ u ih =>
    intro hu
    have hparams : (nextCycle (σ u)).params = (nextCycle (σ' u)).params :=
      (h.params_eq u).trans ((congrArg State.params h0).trans (h'.params_eq u).symm)
    have hagree : AgreeBesideSync (nextCycle (σ u)) (nextCycle (σ' u)) := ih (by omega)
    have hlevel : level (nextCycle (σ u)) = level (nextCycle (σ' u)) := level_eq_of_words_eq_before h h' h0 hbefore hu
    rw [(h.succ u).2, (h'.succ u).2]
    exact hagree.after_cycle (hcommands u) hparams hlevel

end LinesDiffer

/-- Settles O47: the outputs are registers outside the synchroniser, and a changed line has not left it by then. -/
theorem linesShowNoEarlierThanTheSynchroniserAllows : Obligations.LinesShowNoEarlierThanTheSynchroniserAllows := by
  unfold Obligations.LinesShowNoEarlierThanTheSynchroniserAllows
  intro σ σ' ι ι' t hrun hrun' h0 hbefore hcommands u hu
  exact (agreeBesideSync_of_words_eq_before hrun hrun' h0 hbefore hcommands u hu).outputs_eq

end Sys2Proof.Machine

/-! PROOFS. The encoding (O3 to O6): a word is the number of its fields, the bits of a word say which rows apply to it, and the
instructions it holds are those whose ports carry it. -/

namespace Sys2Proof

/-- The numeric value of the fields (30_encoding.md R34). -/
def Ports.number (i : Inputs) : Nat :=
  i.rst.toNat + 2 * i.btnRaw.arm.toNat + 4 * i.btnRaw.react.toNat + 8 * i.en.arm.toNat + 16 * i.en.react.toNat
    + 32 * i.clrPend.arm.toNat + 64 * i.clrPend.react.toNat + 128 * i.consume.arm.toNat + 256 * i.consume.react.toNat

theorem Ports.toWord_eq_ofNat_number (i : Inputs) : i.toWord = BitVec.ofNat 9 i.number := rfl

/-- A 9-bit number is the weighted sum of its bits, each of them `w / 2 ^ k % 2`. -/
theorem Ports.number_ofWord (w : IW) : (Ports.ofWord w).number = w.toNat := by
  have hbit : ∀ k, (w.getLsbD k).toNat = w.toNat / 2 ^ k % 2 := fun k => Nat.toNat_testBit w.toNat k
  have hlt : w.toNat < 512 := w.isLt
  simp only [Ports.number, Ports.ofWord, hbit]
  omega

/-- The word of a word's fields. -/
@[simp] theorem Ports.toWord_ofWord (w : IW) : (Ports.ofWord w).toWord = w := by
  rw [Ports.toWord_eq_ofNat_number, Ports.number_ofWord, BitVec.ofNat_toNat, BitVec.setWidth_eq]

theorem Row.mem_all (r : Row) : r ∈ Row.all := by cases r <;> decide

/-- When a row applies to a word, by the word's bits (30_encoding.md R36). -/
theorem Row.applies_eq_selected (r : Row) (w : IW) : r.applies w = r.selected (Ports.ofWord w) := by
  rw [← Row.applies_toWord, Ports.toWord_ofWord]

@[simp] theorem Row.row_read (r : Row) (i : Inputs) : (r.read i).row = r := by cases r <;> rfl

/-- What a word holds: what its rows read from it. -/
theorem mem_decodeAll {w : IW} {i : Instr} :
    i ∈ decodeAll w ↔ ∃ r : Row, r.applies w = true ∧ r.read (Ports.ofWord w) = i := by
  simp [decodeAll, Row.mem_all]

/-- The rows of the instructions a word holds, in the table's order (30_encoding.md R36). -/
theorem map_row_decodeAll (w : IW) : (decodeAll w).map Instr.row = Row.all.filter fun r => r.applies w := by
  simp [decodeAll, Function.comp_def]

/-- The ports of an instruction that a word holds carry that word's fields. -/
theorem inputs_of_mem_decodeAll {w : IW} {i : Instr} (h : i ∈ decodeAll w) : i.inputs = Ports.ofWord w := by
  obtain ⟨r, hr, rfl⟩ := mem_decodeAll.mp h
  rw [Row.applies_eq_selected] at hr
  exact Row.inputs_read hr

/-- The row of every instruction applies to its encoding and reads it back. -/
theorem rowApplies (i : Instr) : Laws.RowApplies.Statement i := by
  cases i with
  | sync r b e c k => exact Laws.RowApplies.sync r b e c k
  | reset b e c k => exact Laws.RowApplies.reset b e c k
  | run b e c k => exact Laws.RowApplies.run b e c k
  | enable0 b e1 c k => exact Laws.RowApplies.enable0 b e1 c k
  | mask0 b e1 c k => exact Laws.RowApplies.mask0 b e1 c k
  | enable1 b e0 c k => exact Laws.RowApplies.enable1 b e0 c k
  | mask1 b e0 c k => exact Laws.RowApplies.mask1 b e0 c k
  | clearPending0 b e c1 k => exact Laws.RowApplies.clearPending0 b e c1 k
  | clearPending1 b e c0 k => exact Laws.RowApplies.clearPending1 b e c0 k
  | consume0 b e c k1 => exact Laws.RowApplies.consume0 b e c k1
  | consume1 b e c k0 => exact Laws.RowApplies.consume1 b e c k0

/-- A word holds exactly the instructions that it is the encoding of. -/
theorem mem_decodeAll_iff_encode (w : IW) (i : Instr) : i ∈ decodeAll w ↔ encode i = w := by
  constructor
  · intro h
    rw [encode, inputs_of_mem_decodeAll h, Ports.toWord_ofWord]
  · rintro rfl
    obtain ⟨happlies, hread⟩ := rowApplies i
    exact mem_decodeAll.mpr ⟨i.row, happlies, hread⟩

/-- No instruction is ill formed (30_encoding.md R35). -/
theorem Instr.wellFormed_eq_true (i : Instr) : i.wellFormed = true := by cases i <;> rfl

/-- Settles O3: a row that applies reads an instruction whose ports carry the fields it was read from, and every instruction is
read from its encoding by its own row. -/
theorem decodeAndEncodeAgree : Obligations.DecodeAndEncodeAgree := by
  unfold Obligations.DecodeAndEncodeAgree
  refine ⟨mem_decodeAll_iff_encode, fun i => ⟨decodeWord (encode i), ?_, ?_⟩, fun w i h => ⟨i.wellFormed_eq_true, ?_⟩⟩
  · rw [decode_drive, Ports.toWord_ofWord]
  · exact congrArg Ports.toWord (decodeWord_inputs i.inputs)
  · rw [← (mem_decodeAll_iff_encode w i).mp h]
    exact (rowApplies i).1

/-- Settles O4. -/
theorem fieldsOfTheInputWord : Obligations.FieldsOfTheInputWord := by
  unfold Obligations.FieldsOfTheInputWord
  intro w
  exact ⟨rfl, fun c => by cases c <;> exact ⟨rfl, rfl, rfl, rfl⟩, (Ports.number_ofWord w).symm, Ports.toWord_ofWord w⟩

/-- A row applies to a word exactly if the word holds an instruction of that row. -/
theorem Row.applies_iff_mem_decodeAll (r : Row) (w : IW) : r.applies w = true ↔ ∃ i ∈ decodeAll w, i.row = r := by
  constructor
  · exact fun h => ⟨_, mem_decodeAll.mpr ⟨r, h, rfl⟩, Row.row_read r _⟩
  · rintro ⟨i, hi, rfl⟩
    obtain ⟨r, hr, rfl⟩ := mem_decodeAll.mp hi
    rwa [Row.row_read]

/-- The rows of a reset word (30_encoding.md R35). -/
theorem Row.selected_of_rst {i : Inputs} (h : i.rst = true) (r : Row) : r.selected i = true ↔ r = .reset ∨ r = .sync := by
  cases r <;> simp [Row.selected, h]

/-- Settles O5: which rows apply is `Row.selected`, row by row. -/
theorem rowsThatApplyToAWord : Obligations.RowsThatApplyToAWord := by
  unfold Obligations.RowsThatApplyToAWord
  refine fun w => ⟨fun r => decide_eq_true_iff, fun r => r.applies_iff_mem_decodeAll w, fun hrst r => ?_, fun hrst => ?_⟩
  · rw [Row.applies_eq_selected]
    exact Row.selected_of_rst hrst r
  · have hfield : (Ports.ofWord w).rst = false := hrst
    simp only [Row.applies_eq_selected, Row.selected, hfield, Bool.not_false, Bool.true_and, true_and]
    exact ⟨rfl, rfl, rfl, rfl, rfl, rfl, rfl, rfl⟩

/-- Settles O6: the rows of a word are those whose mask and match it meets. That `decode` answers CONSUME1 for 0x158 is the
model's choice (log 6). -/
theorem rowsOfTheExampleWords : Obligations.RowsOfTheExampleWords := by
  unfold Obligations.RowsOfTheExampleWords
  simp only [map_row_decodeAll]
  exact ⟨by decide, by decide, by decide, by decide, by decide, by decide⟩

end Sys2Proof

/-! PROOFS. Every row that applies to a word is the cycle of that word (O2): the composed cycle where `rst = 0` (O19), and SYNC in
both cases (O16). -/

namespace Sys2Proof.Machine

/-- Settles O2: a step is the cycle of the word on the ports, and so is the meaning of every instruction that the word holds. -/
theorem stepRunsEveryRowThatApplies : Obligations.StepRunsEveryRowThatApplies := by
  unfold Obligations.StepRunsEveryRowThatApplies
  intro s w i hp hi
  have hexec := exec_eq_cycleOf i (nextCycle s)
  rw [inputs_of_mem_decodeAll hi] at hexec
  exact (step_withInputs _ hp).trans hexec.symm

section Independent

variable {s : State} {cnt : Pair Nat} (ι : Inputs)

theorem start_of_independent (h : s.engine = .independent cnt) (c : Channel) :
    start ι s c = (decide (cnt.get c = 0) && cand ι s c) := by
  rw [start_eq_startsWindow, startsWindow, h]
  rfl

theorem accept_of_independent (h : s.engine = .independent cnt) (c : Channel) :
    accept ι s c = (decide (cnt.get c = 1) && level s c) := by
  rw [accept_eq_resampleReads, resampleReads, windowCount_of_independent h]

end Independent

section Shared

variable {s : State} {cnt : Nat} {owner : Channel} (ι : Inputs)

/-- A shared engine starts a window when it is idle, for the winner of the arbitration (41_settle_window.md R56). -/
theorem start_of_shared (h : s.engine = .shared cnt owner) (c : Channel) :
    start ι s c = true ↔ cnt = 0 ∧ c = winner ι s ∧ cand ι s c = true := by
  have hstarts : startsWindow ι s c =
      (decide (cnt = 0) && cand ι s c && (decide (c = s.priority) || !cand ι s s.priority)) := by
    rw [startsWindow, h]
    rfl
  rw [start_eq_startsWindow, hstarts, winner_and_cand]
  simp [and_assoc]

/-- The re-sample of a shared engine is its owner's (41_settle_window.md R57). -/
theorem accept_of_shared (h : s.engine = .shared cnt owner) (c : Channel) :
    accept ι s c = (decide (cnt = 1) && decide (c = owner) && level s owner) := by
  rw [accept_eq_resampleReads, resampleReads, windowCount_of_shared h]
  by_cases hc : owner = c
  · simp [hc]
  · have hc' : ¬ c = owner := fun h => hc h.symm
    simp [hc, hc']

end Shared

/-- Every cycle shifts both synchronisers (40_edge_capture.md R42). -/
theorem cycleOf_syncShifted (ι : Inputs) (s : State) : SyncShifted ι.btnRaw s (cycleOf ι s) := by
  intro c k
  rw [cycleOf_sync, nextSync_shifted]

/-- No cycle touches the parameters or what the environment has listed. -/
theorem cycleOf_unchanged (ι : Inputs) (s : State) : Unchanged s (cycleOf ι s) := by
  refine ⟨cycleOf_params ι s, ?_⟩
  unfold cycleOf
  split <;> exact ⟨rfl, rfl⟩

theorem cycleOf_of_no_reset {ι : Inputs} (h : ι.rst = false) (s : State) : cycleOf ι s = runCycle ι s := by
  rw [cycleOf, h]
  rfl

/-- The cycle without reset is the composed pseudocode of 43_cycle_step.md R68, with the engine's own start, accept and candidate
as the pseudocode's signals. -/
theorem runCycle_isRunCycle {ι : Inputs} (hrst : ι.rst = false) (s : State) : IsRunCycle ι s (runCycle ι s) := by
  have hshift := cycleOf_syncShifted ι s
  have hkeep := cycleOf_unchanged ι s
  rw [cycleOf_of_no_reset hrst] at hshift hkeep
  refine ⟨hkeep, hshift, runCycle_prev s ι, start ι s, accept ι s, cand ι s, fun _ => rfl,
    runCycle_pend s ι, runCycle_flag s ι, ?_⟩
  rw [runCycle_engine]
  cases he : s.engine with
  | independent cnt =>
    refine ⟨start_of_independent ι he, accept_of_independent ι he, _, nextEngine_independent ι he, fun c => ?_⟩
    rw [Pair.get_ofFn, start_of_independent ι he]
    by_cases h0 : cnt.get c = 0 <;> simp [h0]
  | shared cnt owner =>
    have hstart := start_of_shared ι he
    have haccept := accept_of_shared ι he
    have hengine := nextEngine_shared ι he
    by_cases h0 : cnt = 0
    · subst h0
      refine ⟨fun c => by rw [haccept]; rfl, ?_⟩
      rw [← cand_winner, hengine, if_pos rfl]
      by_cases hw : cand ι s (winner ι s) = true
      · rw [if_pos hw, if_pos hw]
        have hloser : ¬ start ι s (winner ι s).other = true := fun h => Channel.other_ne _ ((hstart _).mp h).2.1
        exact ⟨winner ι s, rfl, (hstart _).mpr ⟨rfl, rfl, hw⟩, Bool.eq_false_iff.mpr hloser, rfl⟩
      · rw [if_neg hw, if_neg hw]
        refine ⟨fun c => Bool.eq_false_iff.mpr fun h => ?_, rfl⟩
        obtain ⟨-, rfl, hc⟩ := (hstart c).mp h
        exact hw hc
    · rw [if_neg h0] at hengine
      simp only [if_neg h0]
      exact ⟨fun c => Bool.eq_false_iff.mpr fun h => h0 ((hstart c).mp h).1, haccept, hengine⟩

/-- Settles O19. -/
theorem commandRowsAreTheComposedCycle : Obligations.CommandRowsAreTheComposedCycle := by
  unfold Obligations.CommandRowsAreTheComposedCycle
  intro i s hrst
  refine ⟨_, exec_eq_cycleOf i s, ?_⟩
  rw [cycleOf_of_no_reset hrst]
  exact runCycle_isRunCycle hrst s

/-- Settles O16: SYNC and the row that `rst` selects carry the same word. -/
theorem syncRunsTheCycleOfItsWord : Obligations.SyncRunsTheCycleOfItsWord := by
  unfold Obligations.SyncRunsTheCycleOfItsWord
  intro rst btn en clr con s
  refine ⟨_, exec_eq_cycleOf (.sync rst btn en clr con) s, ?_, cycleOf_syncShifted _ s, cycleOf_unchanged _ s⟩
  cases rst with
  | false => exact exec_eq_cycleOf (.run btn en clr con) s
  | true => exact exec_eq_cycleOf (.reset btn en clr con) s

end Sys2Proof.Machine

/-! PROOFS. The textual traces (O37, O38, O52): the words that lines and pseudo-commands name. -/

namespace Sys2Proof.Machine

/-- Settles O37. -/
theorem pseudoCommandExpansions : Obligations.PseudoCommandExpansions := by
  unfold Obligations.PseudoCommandExpansions
  exact fun _ _ _ => ⟨rfl, rfl, rfl, rfl⟩

/-- Settles O38. -/
theorem traceLinesNameWords : Obligations.TraceLinesNameWords := by
  unfold Obligations.TraceLinesNameWords
  decide

/-- A line of R40's grammar is read as without pseudo-commands. -/
theorem parseCommandLine_of_parseLine {s : List Char} {ws : List IW} (n : Nat) (h : parseLine s = some ws) :
    parseCommandLine n s = some ws := by
  rw [parseCommandLine, h]

/-- A pseudo-command names the words of its expansion. -/
theorem parseCommandLine_of_parsePseudoCommand {s : List Char} {p : PseudoCommand} (n : Nat) (hline : parseLine s = none)
    (h : parsePseudoCommand s = some p) : parseCommandLine n s = some (p.expand n) := by
  rw [parseCommandLine, hline, h]
  rfl

/-- Settles O52: no pseudo-command is a line of R40's grammar, so each is read by its name. That a name may stand as a line is the
model's choice (log 17). -/
theorem pseudoCommandLinesNameWords : Obligations.PseudoCommandLinesNameWords := by
  unfold Obligations.PseudoCommandLinesNameWords
  refine ⟨fun n => ⟨?_, ?_, ?_, ?_, fun _ _ h => parseCommandLine_of_parseLine n h⟩, by decide⟩
  · exact parseCommandLine_of_parsePseudoCommand (p := .resetSeq) n (by decide) (by decide)
  · exact parseCommandLine_of_parsePseudoCommand (p := .idleWord) n (by decide) (by decide)
  · exact parseCommandLine_of_parsePseudoCommand (p := .unmask1) n (by decide) (by decide)
  · exact parseCommandLine_of_parsePseudoCommand (p := .wait 0x00A 9) n (by decide) (by decide)

end Sys2Proof.Machine

/-! PROOFS. Edge capture (40_edge_capture.md): the synchroniser's shift and its level (O17, O40), `prev` (O20), the pending latch
(O21), and what a clear discards (O24, O25), together with the consume of an unmasking (O29, O54). -/

namespace Sys2Proof.Machine

/-- Every row whose word has `rst = 0` answers with the run cycle of its word (30_encoding.md R35, R36). -/
theorem exec_of_no_reset {i : Instr} (h : i.inputs.rst = false) (s : State) : exec i s = .next (runCycle i.inputs s) := by
  rw [exec_eq_cycleOf, cycleOf_of_no_reset h]

/-- `prev` after the cycle of any word (40_edge_capture.md R44). -/
theorem cycleOf_prev (ι : Inputs) (s : State) (c : Channel) :
    (cycleOf ι s).prev.get c = if ι.rst then true else level s c := by
  unfold cycleOf
  split
  case isTrue => exact resetCycle_prev s ι c
  case isFalse => exact runCycle_prev s ι c

/-- Settles O17. -/
theorem everyInstructionShiftsTheSynchroniser : Obligations.EveryInstructionShiftsTheSynchroniser := by
  unfold Obligations.EveryInstructionShiftsTheSynchroniser
  exact fun i s => ⟨_, exec_eq_cycleOf i s, cycleOf_syncShifted i.inputs s⟩

/-- Settles O20. -/
theorem prevFollowsTheLevel : Obligations.PrevFollowsTheLevel := by
  unfold Obligations.PrevFollowsTheLevel
  exact fun i s c => ⟨_, exec_eq_cycleOf i s, cycleOf_prev i.inputs s c⟩

/-- Settles O40: the last stage of a synchroniser that has been shifted `SYNC_STAGES` times holds the line captured first. -/
theorem levelIsTheLineSyncStagesEarlier : Obligations.LevelIsTheLineSyncStagesEarlier := by
  unfold Obligations.LevelIsTheLineSyncStagesEarlier
  intro σ ι t c hrun
  obtain ⟨hone, -⟩ := (params_wellFormed_iff _).mp (hrun.succ 0).1
  have hstage := hrun.stage_eq_line (r := t + ((σ 0).syncStages - 1)) (k := (σ 0).syncStages - 1) c (by omega) (by omega)
  rw [Nat.add_sub_cancel, Nat.add_assoc, Nat.sub_add_cancel hone] at hstage
  refine ⟨hstage, ?_⟩
  rw [level_eq_stage, hrun.syncStages_eq (t + (σ 0).syncStages), hstage, Option.getD_some]

section RunCycle

variable (ι : Inputs) (s : State) (c : Channel)

/-- `CAPTURE` with the start of the claims (40_edge_capture.md R46). -/
theorem runCycle_pend_eq :
    (runCycle ι s).pend.get c = (rise s c || (s.pend.get c && !ι.clrPend.get c && !startsWindow ι s c)) := by
  rw [runCycle_pend, start_eq_startsWindow, nextPend]

/-- The flag with the accepted re-sample of the claims (42_event_flag.md R60). -/
theorem runCycle_flag_eq :
    (runCycle ι s).flag.get c = (resampleReads s c || (s.flag.get c && !ι.consume.get c)) := by
  rw [runCycle_flag, accept_eq_resampleReads, nextFlag]

end RunCycle

/-- Settles O21. -/
theorem pendingLatchCapturesRawEdges : Obligations.PendingLatchCapturesRawEdges := by
  unfold Obligations.PendingLatchCapturesRawEdges
  intro i s c hrst
  have hpend := runCycle_pend_eq i.inputs s c
  refine ⟨_, exec_of_no_reset hrst s, hpend, fun hrise => ?_⟩
  rw [hpend, hrise, Bool.true_or]

/-! ## A clear, and a clear with a consume -/

section Clear

variable {ι : Inputs} {c : Channel}

/-- Only a candidate's window starts (41_settle_window.md R51, R56). -/
theorem cand_of_startsWindow {s : State} (h : startsWindow ι s c = true) : cand ι s c = true := by
  rw [← start_eq_startsWindow] at h
  cases he : s.engine with
  | independent cnt =>
    rw [start_of_independent ι he, Bool.and_eq_true] at h
    exact h.2
  | shared cnt owner =>
    obtain ⟨-, -, hcand⟩ := (start_of_shared ι he c).mp h
    exact hcand

/-- A cleared channel is no candidate (41_settle_window.md R50), so a clear suppresses the start (40_edge_capture.md R47). -/
theorem startsWindow_of_clear (h : ι.clrPend.get c = true) (s : State) : startsWindow ι s c = false := by
  have hcand : cand ι s c = false := by rw [cand, h, Bool.not_true, Bool.and_false]
  refine Bool.eq_false_iff.mpr fun hstart => ?_
  rw [cand_of_startsWindow hstart] at hcand
  cases hcand

/-- A clear leaves only the raw edge of its cycle (40_edge_capture.md R47). -/
theorem runCycle_pend_of_clear (h : ι.clrPend.get c = true) (s : State) : (runCycle ι s).pend.get c = rise s c := by
  rw [runCycle_pend_eq, h, Bool.not_true, Bool.and_false, Bool.false_and, Bool.or_false]

/-- In a cycle with a clear a running window goes on, and none starts. -/
theorem windowCount_runCycle_of_clear (h : ι.clrPend.get c = true) (s : State) :
    windowCount (runCycle ι s) c = windowCount s c - 1 := by
  rw [windowCount_runCycle, startsWindow_of_clear h, if_neg Bool.false_ne_true]

/-- A consume leaves only what a re-sample of its cycle accepts (42_event_flag.md R61). -/
theorem runCycle_flag_of_consume (h : ι.consume.get c = true) (s : State) :
    (runCycle ι s).flag.get c = resampleReads s c := by
  rw [runCycle_flag_eq, h, Bool.not_true, Bool.and_false, Bool.or_false]

/-- An instruction that clears and consumes a channel leaves neither its stale edge nor its stale flag. -/
theorem exec_of_clear_and_consume {i : Instr} (hrst : i.inputs.rst = false) (hclr : i.inputs.clrPend.get c = true)
    (hcon : i.inputs.consume.get c = true) (s : State) :
    ∃ t, exec i s = .next t ∧
      t.pend.get c = rise s c ∧ windowCount t c = windowCount s c - 1 ∧ t.flag.get c = resampleReads s c :=
  ⟨_, exec_of_no_reset hrst s, runCycle_pend_of_clear hclr s, windowCount_runCycle_of_clear hclr s,
    runCycle_flag_of_consume hcon s⟩

end Clear

/-- What R90 asks of a word that enables the react channel after a word that did not. -/
theorem clear_and_consume_of_unmaskDuty {before now : Inputs} (hbefore : before.en.react = false) (hnow : now.en.react = true)
    (hduty : unmaskDuty before now = true) : now.clrPend.react = true ∧ now.consume.react = true := by
  simpa [unmaskDuty, hbefore, hnow] using hduty

/-- What R92 asks of a word that unmasks the arm channel: `en[0] = 1` leaves Idle as the only phase. -/
theorem idle_clear_and_consume_of_unmasksArm {phase : GamePhase} {before now : Inputs} (hunmask : unmasksArm before now = true)
    (hduty : armMaskedOutsideIdleDuty phase before now = true) :
    phase = .idle ∧ now.clrPend.arm = true ∧ now.consume.arm = true := by
  have hen : now.en.arm = true := ((Bool.and_eq_true _ _).mp hunmask).2
  simpa [armMaskedOutsideIdleDuty, hunmask, hen] using hduty

/-- An unmasking is no reset word (log 14). -/
theorem no_reset_of_unmasksArm {before now : Inputs} (h : unmasksArm before now = true) : now.rst = false := by
  simp only [unmasksArm, Bool.and_eq_true, Bool.not_eq_true'] at h
  obtain ⟨⟨⟨-, hrst⟩, -⟩, -⟩ := h
  exact hrst

/-- Settles O29. -/
theorem unmaskDutyDiscardsStaleEdgeAndFlag : Obligations.UnmaskDutyDiscardsStaleEdgeAndFlag := by
  unfold Obligations.UnmaskDutyDiscardsStaleEdgeAndFlag
  intro i s before hrst hbefore hnow hduty
  obtain ⟨hclr, hcon⟩ := clear_and_consume_of_unmaskDuty hbefore hnow hduty
  exact exec_of_clear_and_consume (c := .react) hrst hclr hcon s

/-- Settles O54. That a change of `en[0]` next to a reset word is no unmasking is the model's choice (log 14). -/
theorem armUnmaskingDiscardsStaleEdgeAndFlag : Obligations.ArmUnmaskingDiscardsStaleEdgeAndFlag := by
  unfold Obligations.ArmUnmaskingDiscardsStaleEdgeAndFlag
  intro phase i s before hunmask hduty
  obtain ⟨hidle, hclr, hcon⟩ := idle_clear_and_consume_of_unmasksArm hunmask hduty
  exact ⟨hidle, exec_of_clear_and_consume (c := .arm) (no_reset_of_unmasksArm hunmask) hclr hcon s⟩

/-! ## A clear against the same word without it -/

/-- Two words that agree outside `clr_pend[c]`. -/
def SameBesideClear (c : Channel) (ι ι' : Inputs) : Prop :=
  ι.btnRaw = ι'.btnRaw ∧ ι.en = ι'.en ∧ ι.consume = ι'.consume ∧ ι.clrPend.get c.other = ι'.clrPend.get c.other

/-- The effect of a clear of channel c (40_edge_capture.md R47): t is the state after the cycle with it, u after the cycle of the same
word without it. -/
def ClearEffect (c : Channel) (s t u : State) : Prop :=
  t.pend.get c = rise s c ∧ (windowCount s c = 0 → windowCount t c = 0) ∧
  (windowCount s c ≠ 0 → t.engine = u.engine ∧ t.pend.get c.other = u.pend.get c.other) ∧
  (s.engine.isShared = false → windowCount t c.other = windowCount u c.other ∧ t.pend.get c.other = u.pend.get c.other) ∧
  t.flag = u.flag ∧ t.sync = u.sync ∧ t.prev = u.prev ∧ Unchanged s t

section BesideClear

variable {ι ι' : Inputs} {c : Channel} (h : SameBesideClear c ι ι')

include h

theorem SameBesideClear.cand_other (s : State) : cand ι s c.other = cand ι' s c.other := by
  obtain ⟨-, hen, -, hclr⟩ := h
  rw [cand, cand, hen, hclr]

theorem SameBesideClear.sync_eq (s : State) : (runCycle ι s).sync = (runCycle ι' s).sync := by
  obtain ⟨hbtn, -, -, -⟩ := h
  rw [runCycle_sync, runCycle_sync, nextSync, nextSync, hbtn]

theorem SameBesideClear.flag_eq (s : State) : (runCycle ι s).flag = (runCycle ι' s).flag := by
  obtain ⟨-, -, hcon, -⟩ := h
  exact Pair.eq_of_get fun d => by rw [runCycle_flag_eq, runCycle_flag_eq, hcon]

/-- The clear of c reaches the other channel's start through the arbitration alone: not where each channel has its own engine, and not
while the window of c runs. -/
theorem SameBesideClear.startsWindow_other {s : State} (halone : s.engine.isShared = false ∨ windowCount s c ≠ 0) :
    startsWindow ι s c.other = startsWindow ι' s c.other := by
  rw [← start_eq_startsWindow, ← start_eq_startsWindow]
  cases he : s.engine with
  | independent cnt => rw [start_of_independent ι he, start_of_independent ι' he, h.cand_other]
  | shared cnt owner =>
    have hrunning : cnt ≠ 0 := by
      rintro rfl
      simp [he, windowCount_of_shared he, Engine.isShared] at halone
    rw [Bool.eq_iff_iff, start_of_shared ι he, start_of_shared ι' he]
    simp only [hrunning, false_and]

theorem SameBesideClear.pend_other {s : State} (halone : s.engine.isShared = false ∨ windowCount s c ≠ 0) :
    (runCycle ι s).pend.get c.other = (runCycle ι' s).pend.get c.other := by
  have hstart := h.startsWindow_other halone
  obtain ⟨-, -, -, hclr⟩ := h
  rw [runCycle_pend_eq, runCycle_pend_eq, hclr, hstart]

theorem SameBesideClear.windowCount_other {s : State} (halone : s.engine.isShared = false ∨ windowCount s c ≠ 0) :
    windowCount (runCycle ι s) c.other = windowCount (runCycle ι' s) c.other := by
  rw [windowCount_runCycle, windowCount_runCycle, h.startsWindow_other halone]

/-- A running window of c does not read the clear (41_settle_window.md R55). -/
theorem SameBesideClear.engine_eq_of_running {s : State} (hrunning : windowCount s c ≠ 0) :
    (runCycle ι s).engine = (runCycle ι' s).engine := by
  rw [runCycle_engine, runCycle_engine]
  cases he : s.engine with
  | independent cnt =>
    rw [windowCount_of_independent he] at hrunning
    rw [nextEngine_independent ι he, nextEngine_independent ι' he]
    refine congrArg _ (Pair.eq_of_get fun d => ?_)
    rw [Pair.get_ofFn, Pair.get_ofFn]
    by_cases hd : d = c
    · simp only [hd, hrunning, false_and]
    · rw [Channel.eq_other_of_ne hd, h.cand_other]
  | shared cnt owner =>
    have hcnt : cnt ≠ 0 := by
      rintro rfl
      simp [windowCount_of_shared he] at hrunning
    rw [nextEngine_shared ι he, nextEngine_shared ι' he, if_neg hcnt, if_neg hcnt]

/-- A clear discards the pending edge and its start, and the rest of the cycle is as without it, up to the arbitration of an idle shared
engine. -/
theorem SameBesideClear.clearEffect (hrst : ι.rst = false) (hclr : ι.clrPend.get c = true) (s : State) :
    ClearEffect c s (runCycle ι s) (runCycle ι' s) := by
  refine ⟨runCycle_pend_of_clear hclr s, fun hidle => ?_,
    fun hrunning => ⟨h.engine_eq_of_running hrunning, h.pend_other (.inr hrunning)⟩,
    fun hown => ⟨h.windowCount_other (.inl hown), h.pend_other (.inl hown)⟩, h.flag_eq s, h.sync_eq s, rfl, ?_⟩
  · rw [windowCount_runCycle_of_clear hclr, hidle]
  · rw [← cycleOf_of_no_reset hrst]
    exact cycleOf_unchanged ι s

end BesideClear

/-- Settles O24. -/
theorem clearPending0DiscardsTheStaleEdge : Obligations.ClearPending0DiscardsTheStaleEdge := by
  unfold Obligations.ClearPending0DiscardsTheStaleEdge
  intro btn en con clr1 s
  have hsame : SameBesideClear .arm (Instr.clearPending0 btn en clr1 con).inputs (Instr.run btn en ⟨false, clr1⟩ con).inputs :=
    ⟨rfl, rfl, rfl, rfl⟩
  exact ⟨_, _, exec_of_no_reset rfl s, exec_of_no_reset rfl s, hsame.clearEffect rfl rfl s⟩

/-- Settles O25. -/
theorem clearPending1DiscardsTheStaleEdge : Obligations.ClearPending1DiscardsTheStaleEdge := by
  unfold Obligations.ClearPending1DiscardsTheStaleEdge
  intro btn en con clr0 s
  have hsame : SameBesideClear .react (Instr.clearPending1 btn en clr0 con).inputs (Instr.run btn en ⟨clr0, false⟩ con).inputs :=
    ⟨rfl, rfl, rfl, rfl⟩
  exact ⟨_, _, exec_of_no_reset rfl s, exec_of_no_reset rfl s, hsame.clearEffect rfl rfl s⟩

end Sys2Proof.Machine

/-! PROOFS. The settle window (41_settle_window.md): what a start needs and what it leaves, the enable (O27, O28), the engines cycle
by cycle (O30 to O34), and a window along a run (O44, O45). -/

namespace Sys2Proof.Machine

section Start

variable {ι : Inputs} {s : State} {c d : Channel}

/-- A start needs an idle engine: its own channel's, and in shared mode no window of either channel runs (41_settle_window.md R51,
R56). -/
theorem windowCount_eq_zero_of_startsWindow (hengine : c = d ∨ s.engine.isShared = true)
    (h : startsWindow ι s d = true) : windowCount s c = 0 := by
  rw [← start_eq_startsWindow] at h
  cases he : s.engine with
  | independent cnt =>
    have hcd : c = d := by simpa [he, Engine.isShared] using hengine
    rw [start_of_independent ι he, Bool.and_eq_true, decide_eq_true_iff] at h
    rw [windowCount_of_independent he, hcd]
    exact h.1
  | shared cnt owner =>
    obtain ⟨rfl, -, -⟩ := (start_of_shared ι he d).mp h
    rw [windowCount_of_shared he]
    exact ite_self 0

/-- While a window runs its engine starts no other (41_settle_window.md R55, R59). -/
theorem startsWindow_of_running (hengine : c = d ∨ s.engine.isShared = true) (h : windowCount s c ≠ 0) :
    startsWindow ι s d = false :=
  Bool.eq_false_iff.mpr fun hstart => h (windowCount_eq_zero_of_startsWindow hengine hstart)

/-- A channel that is no candidate starts no window (41_settle_window.md R50). -/
theorem startsWindow_of_no_cand (h : cand ι s c = false) : startsWindow ι s c = false :=
  Bool.eq_false_iff.mpr fun hstart => Bool.eq_false_iff.mp h (cand_of_startsWindow hstart)

/-- A start takes the pending edge (41_settle_window.md R51). -/
theorem runCycle_pend_of_start (h : startsWindow ι s c = true) : (runCycle ι s).pend.get c = rise s c := by
  rw [runCycle_pend_eq, h, Bool.not_true, Bool.and_false, Bool.or_false]

/-- Without a start the pending edge waits (41_settle_window.md R59). -/
theorem runCycle_pend_of_no_start (h : startsWindow ι s c = false) :
    (runCycle ι s).pend.get c = (rise s c || (s.pend.get c && !ι.clrPend.get c)) := by
  rw [runCycle_pend_eq, h, Bool.not_false, Bool.and_true]

theorem windowCount_runCycle_of_start (h : startsWindow ι s c = true) : windowCount (runCycle ι s) c = s.settleCycles := by
  rw [windowCount_runCycle, if_pos h]

theorem windowCount_runCycle_of_no_start (h : startsWindow ι s c = false) :
    windowCount (runCycle ι s) c = windowCount s c - 1 := by
  rw [windowCount_runCycle, h, if_neg Bool.false_ne_true]

/-- A running window loses one, whatever the commands (41_settle_window.md R52, R55). -/
theorem windowCount_runCycle_of_running (ι : Inputs) (h : windowCount s c ≠ 0) :
    windowCount (runCycle ι s) c = windowCount s c - 1 :=
  windowCount_runCycle_of_no_start (startsWindow_of_running (.inl rfl) h)

/-- A pending edge waits while its channel's window runs (41_settle_window.md R59). -/
theorem runCycle_pend_of_running (ι : Inputs) (h : windowCount s c ≠ 0) :
    (runCycle ι s).pend.get c = (rise s c || (s.pend.get c && !ι.clrPend.get c)) :=
  runCycle_pend_of_no_start (startsWindow_of_running (.inl rfl) h)

/-- Only the re-sample of a window, at counter 1, sets the flag (41_settle_window.md R53). -/
theorem runCycle_flag_of_no_resample (h : windowCount s c ≠ 1) :
    (runCycle ι s).flag.get c = (s.flag.get c && !ι.consume.get c) := by
  rw [runCycle_flag_eq, resampleReads, decide_eq_false h, Bool.false_and, Bool.false_or]

end Start

/-! ## The engine's registers after a cycle, by its starts -/

section NextEngine

variable {ι ι' : Inputs} {s : State}

/-- An own engine starts where it is idle and its channel is a candidate (41_settle_window.md R51). -/
theorem startsWindow_of_independent (ι : Inputs) {cnt : Pair Nat} (he : s.engine = .independent cnt) (c : Channel) :
    startsWindow ι s c = (decide (cnt.get c = 0) && cand ι s c) := by
  rw [← start_eq_startsWindow, start_of_independent ι he]

/-- The arbitration of an idle shared engine (41_settle_window.md R56). -/
theorem startsWindow_of_idle_shared (ι : Inputs) {owner : Channel} (he : s.engine = .shared 0 owner) (c : Channel) :
    startsWindow ι s c = true ↔ cand ι s c = true ∧ (c = s.priority ∨ cand ι s s.priority = false) := by
  rw [← start_eq_startsWindow, start_of_shared ι he, winner_and_cand]
  exact ⟨fun h => h.2, fun h => ⟨rfl, h⟩⟩

theorem nextEngine_independent_of_starts (ι : Inputs) {cnt : Pair Nat} (he : s.engine = .independent cnt) :
    nextEngine ι s =
      .independent (.ofFn fun c => if startsWindow ι s c = true then s.settleCycles else cnt.get c - 1) := by
  simp only [nextEngine_independent ι he, startsWindow_of_independent ι he, Bool.and_eq_true, decide_eq_true_iff]

/-- A start of a shared engine makes the channel its owner (41_settle_window.md R56). -/
theorem nextEngine_shared_of_start {cnt : Nat} {owner c : Channel} (he : s.engine = .shared cnt owner)
    (h : startsWindow ι s c = true) : nextEngine ι s = .shared s.settleCycles c := by
  rw [← start_eq_startsWindow] at h
  obtain ⟨hidle, rfl, hcand⟩ := (start_of_shared ι he c).mp h
  rw [nextEngine_shared ι he, if_pos hidle, if_pos hcand]

/-- Without a start a shared engine counts, or stays idle, and keeps its owner (41_settle_window.md R57). -/
theorem nextEngine_shared_of_no_start {cnt : Nat} {owner : Channel} (he : s.engine = .shared cnt owner)
    (h : ∀ c, startsWindow ι s c = false) : nextEngine ι s = .shared (cnt - 1) owner := by
  rw [nextEngine_shared ι he]
  by_cases hidle : cnt = 0
  · have hcand : ¬ cand ι s (winner ι s) = true := fun hcand => by
      have hstart := (start_of_shared ι he _).mpr ⟨hidle, rfl, hcand⟩
      rw [start_eq_startsWindow, h] at hstart
      cases hstart
    rw [if_pos hidle, if_neg hcand, hidle]
  · rw [if_neg hidle]

/-- The engine reads the commands through its starts alone. -/
theorem nextEngine_of_starts_eq (h : startsWindow ι s = startsWindow ι' s) : nextEngine ι s = nextEngine ι' s := by
  cases he : s.engine with
  | independent cnt => rw [nextEngine_independent_of_starts ι he, nextEngine_independent_of_starts ι' he, h]
  | shared cnt owner =>
    by_cases hstart : ∃ c, startsWindow ι s c = true
    · obtain ⟨c, hc⟩ := hstart
      rw [nextEngine_shared_of_start he hc, nextEngine_shared_of_start he (h ▸ hc)]
    · have hnone : ∀ c, startsWindow ι s c = false := fun c => Bool.eq_false_iff.mpr fun hc => hstart ⟨c, hc⟩
      rw [nextEngine_shared_of_no_start he hnone, nextEngine_shared_of_no_start he (h ▸ hnone)]

theorem startsWindow_of_cand_eq (h : cand ι s = cand ι' s) : startsWindow ι s = startsWindow ι' s := by
  have hwinner : winner ι s = winner ι' s := by rw [winner, winner, h]
  funext c
  rw [← start_eq_startsWindow, ← start_eq_startsWindow]
  cases he : s.engine with
  | independent cnt => rw [start_of_independent ι he, start_of_independent ι' he, h]
  | shared cnt owner => rw [Bool.eq_iff_iff, start_of_shared ι he, start_of_shared ι' he, hwinner, h]

/-- While the window of c runs, the candidate of c is not read: own engines start the other channel by its own candidate, and a
shared engine starts nothing. -/
theorem startsWindow_eq_of_running {c : Channel} (hrunning : windowCount s c ≠ 0)
    (hother : cand ι s c.other = cand ι' s c.other) : startsWindow ι s = startsWindow ι' s := by
  funext d
  by_cases hengine : c = d ∨ s.engine.isShared = true
  · rw [startsWindow_of_running hengine hrunning, startsWindow_of_running hengine hrunning]
  · obtain ⟨hcd, hown⟩ := not_or.mp hengine
    cases he : s.engine with
    | independent cnt =>
      rw [startsWindow_of_independent ι he, startsWindow_of_independent ι' he, Channel.eq_other_of_ne (Ne.symm hcd), hother]
    | shared cnt owner => exact absurd (congrArg Engine.isShared he) hown

/-- The shift reads the lines alone (40_edge_capture.md R42). -/
theorem nextSync_of_btnRaw_eq (h : ι.btnRaw = ι'.btnRaw) (s : State) : nextSync ι s = nextSync ι' s := by
  rw [nextSync, nextSync, h]

/-- The flags read the consumes alone (42_event_flag.md R60). -/
theorem runCycle_flag_of_consume_eq (h : ι.consume = ι'.consume) (s : State) : (runCycle ι s).flag = (runCycle ι' s).flag :=
  Pair.eq_of_get fun c => by rw [runCycle_flag_eq, runCycle_flag_eq, h]

/-- Beside the starts a run cycle reads the lines, the clears and the consumes, but no enable (41_settle_window.md R49). -/
theorem runCycle_of_starts_eq (hbtn : ι.btnRaw = ι'.btnRaw) (hclr : ι.clrPend = ι'.clrPend) (hcon : ι.consume = ι'.consume)
    (hstarts : startsWindow ι s = startsWindow ι' s) : runCycle ι s = runCycle ι' s := by
  have hpend : (runCycle ι s).pend = (runCycle ι' s).pend :=
    Pair.eq_of_get fun c => by rw [runCycle_pend_eq, runCycle_pend_eq, hclr, hstarts]
  simp only [runCycle, State.mk.injEq, true_and, and_true]
  exact ⟨nextSync_of_btnRaw_eq hbtn s, hpend, runCycle_flag_of_consume_eq hcon s, nextEngine_of_starts_eq hstarts⟩

end NextEngine

/-! ## The enable -/

/-- Two words that agree outside `en[c]`. -/
def SameBesideEnable (c : Channel) (ι ι' : Inputs) : Prop :=
  ι.btnRaw = ι'.btnRaw ∧ ι.clrPend = ι'.clrPend ∧ ι.consume = ι'.consume ∧ ι.en.get c.other = ι'.en.get c.other

/-- The effect of the enable of channel c in a word ι (41_settle_window.md R49): t is the state after the cycle with `en[c] = 1`, u
after the cycle of the same word with `en[c] = 0`. -/
def EnableEffect (c : Channel) (ι : Inputs) (s t u : State) : Prop :=
  t.sync = u.sync ∧ t.prev = u.prev ∧ t.flag = u.flag ∧ Unchanged s t ∧ Unchanged s u ∧
  ((s.pend.get c && !ι.clrPend.get c) = false ∨ windowCount s c ≠ 0 → t = u) ∧
  u.pend.get c = (rise s c || (s.pend.get c && !ι.clrPend.get c)) ∧ windowCount u c = windowCount s c - 1 ∧
  (startsWindow ι s c = true → windowCount t c = s.settleCycles ∧ t.pend.get c = rise s c)

/-- Without an uncleared pending edge a channel is no candidate (41_settle_window.md R50). -/
theorem cand_of_no_edge {ι : Inputs} {s : State} {c : Channel} (h : (s.pend.get c && !ι.clrPend.get c) = false) :
    cand ι s c = false := by
  rw [cand, Bool.and_right_comm, h, Bool.false_and]

/-- A masked channel is no candidate (41_settle_window.md R50), so it starts no window. -/
theorem startsWindow_of_masked {ι : Inputs} {c : Channel} (h : ι.en.get c = false) (s : State) : startsWindow ι s c = false := by
  have hcand : cand ι s c = false := by rw [cand, h, Bool.and_false, Bool.false_and]
  exact startsWindow_of_no_cand hcand

theorem runCycle_unchanged {ι : Inputs} (h : ι.rst = false) (s : State) : Unchanged s (runCycle ι s) :=
  cycleOf_of_no_reset h s ▸ cycleOf_unchanged ι s

section BesideEnable

variable {ι ι' : Inputs} {c : Channel} (h : SameBesideEnable c ι ι')

include h

theorem SameBesideEnable.cand_other (s : State) : cand ι s c.other = cand ι' s c.other := by
  obtain ⟨-, hclr, -, hen⟩ := h
  rw [cand, cand, hclr, hen]

/-- Without an uncleared pending edge of its channel the enable is not read. -/
theorem SameBesideEnable.cand_eq {s : State} (hnone : (s.pend.get c && !ι.clrPend.get c) = false) :
    cand ι s = cand ι' s := by
  have hother := h.cand_other s
  obtain ⟨-, hclr, -, -⟩ := h
  funext d
  by_cases hd : d = c
  · subst hd
    rw [cand_of_no_edge hnone, cand_of_no_edge (hclr ▸ hnone)]
  · rw [Channel.eq_other_of_ne hd]
    exact hother

/-- Where channel c has no uncleared pending edge, or its window runs, the enable does not show in the starts. -/
theorem SameBesideEnable.startsWindow_eq {s : State}
    (hunread : (s.pend.get c && !ι.clrPend.get c) = false ∨ windowCount s c ≠ 0) : startsWindow ι s = startsWindow ι' s := by
  obtain hnone | hrunning := hunread
  · exact startsWindow_of_cand_eq (h.cand_eq hnone)
  · exact startsWindow_eq_of_running hrunning (h.cand_other s)

theorem SameBesideEnable.enableEffect (hrst : ι.rst = false) (hrst' : ι'.rst = false) (hmask : ι'.en.get c = false) (s : State) :
    EnableEffect c ι s (runCycle ι s) (runCycle ι' s) := by
  have hnone := startsWindow_of_masked hmask s
  have hstarts := h.startsWindow_eq (s := s)
  obtain ⟨hbtn, hclr, hcon, -⟩ := h
  refine ⟨nextSync_of_btnRaw_eq hbtn s, rfl, runCycle_flag_of_consume_eq hcon s, runCycle_unchanged hrst s,
    runCycle_unchanged hrst' s, fun hunread => runCycle_of_starts_eq hbtn hclr hcon (hstarts hunread), ?_,
    windowCount_runCycle_of_no_start hnone, fun hstart => ⟨windowCount_runCycle_of_start hstart, runCycle_pend_of_start hstart⟩⟩
  rw [hclr]
  exact runCycle_pend_of_no_start hnone

end BesideEnable

/-- Settles O27. -/
theorem enableAndMask0ActThroughTheCandidate : Obligations.EnableAndMask0ActThroughTheCandidate := by
  unfold Obligations.EnableAndMask0ActThroughTheCandidate
  intro btn clr con en1 s
  have hsame : SameBesideEnable .arm (Instr.enable0 btn en1 clr con).inputs (Instr.mask0 btn en1 clr con).inputs :=
    ⟨rfl, rfl, rfl, rfl⟩
  exact ⟨_, _, exec_of_no_reset rfl s, exec_of_no_reset rfl s, hsame.enableEffect rfl rfl rfl s⟩

/-- Settles O28. -/
theorem enableAndMask1ActThroughTheCandidate : Obligations.EnableAndMask1ActThroughTheCandidate := by
  unfold Obligations.EnableAndMask1ActThroughTheCandidate
  intro btn clr con en0 s
  have hsame : SameBesideEnable .react (Instr.enable1 btn en0 clr con).inputs (Instr.mask1 btn en0 clr con).inputs :=
    ⟨rfl, rfl, rfl, rfl⟩
  exact ⟨_, _, exec_of_no_reset rfl s, exec_of_no_reset rfl s, hsame.enableEffect rfl rfl rfl s⟩

/-! ## One engine per channel -/

/-- The counters after a run cycle with one engine per channel are the channels' window counters. -/
theorem runCycle_engine_of_independent (ι : Inputs) {s : State} {cnt : Pair Nat} (he : s.engine = .independent cnt) :
    ∃ cnt', (runCycle ι s).engine = .independent cnt' ∧ ∀ c, cnt'.get c = windowCount (runCycle ι s) c := by
  have hengine : (runCycle ι s).engine = _ := nextEngine_independent_of_starts ι he
  exact ⟨_, hengine, fun c => (windowCount_of_independent hengine c).symm⟩

/-- Settles O30: START, COUNT and IDLE are told apart by whether the channel starts, and at none of them is the counter 1. -/
theorem independentEngineStartsCountsAndIdles : Obligations.IndependentEngineStartsCountsAndIdles := by
  unfold Obligations.IndependentEngineStartsCountsAndIdles
  intro btn en clr con s cnt he
  obtain ⟨cnt', he', hcnt'⟩ := runCycle_engine_of_independent (Instr.run btn en clr con).inputs he
  refine ⟨_, cnt', exec_of_no_reset rfl s, he', fun c => ?_⟩
  have hcount := windowCount_of_independent he c
  have hstart := startsWindow_of_independent (Instr.run btn en clr con).inputs he c
  rw [hcnt']
  refine ⟨fun hidle hpend hen hclr => ?_, fun hrunning => ?_, fun hidle hcand => ?_⟩
  · have hcand : cand (Instr.run btn en clr con).inputs s c = true := by simp [cand, Instr.inputs, hpend, hen, hclr]
    have hstarts : startsWindow (Instr.run btn en clr con).inputs s c = true := by
      rw [hstart, decide_eq_true hidle, hcand, Bool.true_and]
    exact ⟨windowCount_runCycle_of_start hstarts, runCycle_pend_of_start hstarts, runCycle_flag_of_no_resample (by omega)⟩
  · have hne : windowCount s c ≠ 0 := by omega
    rw [← hcount]
    exact ⟨windowCount_runCycle_of_running _ hne, runCycle_flag_of_no_resample (by omega), runCycle_pend_of_running _ hne⟩
  · have hstays : startsWindow (Instr.run btn en clr con).inputs s c = false := startsWindow_of_no_cand hcand
    refine ⟨?_, runCycle_flag_of_no_resample (by omega)⟩
    rw [windowCount_runCycle_of_no_start hstays, hcount, hidle]

/-- Settles O31. -/
theorem independentReSampleReadsOneLevel : Obligations.IndependentReSampleReadsOneLevel := by
  unfold Obligations.IndependentReSampleReadsOneLevel
  intro btn en clr con s cnt c he hone
  obtain ⟨cnt', he', hcnt'⟩ := runCycle_engine_of_independent (Instr.run btn en clr con).inputs he
  have hcount : windowCount s c = 1 := (windowCount_of_independent he c).trans hone
  have hne : windowCount s c ≠ 0 := by omega
  have hresample : resampleReads s c = level s c := by rw [resampleReads, decide_eq_true hcount, Bool.true_and]
  refine ⟨_, cnt', exec_of_no_reset rfl s, he', ?_, fun hlevel => ?_, fun hlevel => ?_, runCycle_pend_of_running _ hne⟩
  · rw [hcnt', windowCount_runCycle_of_running _ hne, hcount]
  · rw [runCycle_flag_eq, hresample, hlevel, Bool.true_or]
  · rw [runCycle_flag_eq, hresample, hlevel, Bool.false_or]
    rfl

/-! ## One shared engine -/

/-- Settles O32. -/
theorem sharedEngineArbitrates : Obligations.SharedEngineArbitrates := by
  unfold Obligations.SharedEngineArbitrates
  intro btn en clr con s owner he
  have hstarts := startsWindow_of_idle_shared (Instr.run btn en clr con).inputs he
  refine ⟨_, exec_of_no_reset rfl s, fun hcand => ?_, fun hcand hcandOther => ?_, fun hcand hcandOther => ?_, fun c => ?_⟩
  · have hwins := (hstarts s.priority).mpr ⟨hcand, .inl rfl⟩
    have hwaits : startsWindow (Instr.run btn en clr con).inputs s s.priority.other = false := by
      refine Bool.eq_false_iff.mpr fun hstart => ?_
      obtain ⟨-, hsame | hnone⟩ := (hstarts _).mp hstart
      · exact Channel.other_ne _ hsame
      · exact Bool.eq_false_iff.mp hnone hcand
    exact ⟨nextEngine_shared_of_start he hwins, runCycle_pend_of_start hwins, runCycle_pend_of_no_start hwaits⟩
  · have hwins := (hstarts s.priority.other).mpr ⟨hcandOther, .inr hcand⟩
    have hwaits : startsWindow (Instr.run btn en clr con).inputs s s.priority = false := startsWindow_of_no_cand hcand
    exact ⟨nextEngine_shared_of_start he hwins, runCycle_pend_of_start hwins, runCycle_pend_of_no_start hwaits⟩
  · have hwaits : ∀ c, startsWindow (Instr.run btn en clr con).inputs s c = false := fun c => by
      by_cases hc : c = s.priority
      · exact hc ▸ startsWindow_of_no_cand hcand
      · exact Channel.eq_other_of_ne hc ▸ startsWindow_of_no_cand hcandOther
    exact ⟨nextEngine_shared_of_no_start he hwaits, fun c => runCycle_pend_of_no_start (hwaits c)⟩
  · refine runCycle_flag_of_no_resample ?_
    rw [windowCount_of_shared he, ite_self]
    exact Nat.zero_ne_one

/-- A running shared engine starts nothing (41_settle_window.md R55). -/
theorem startsWindow_of_running_shared (ι : Inputs) {s : State} {cnt : Nat} {owner : Channel} (he : s.engine = .shared cnt owner)
    (hrunning : cnt ≠ 0) (c : Channel) : startsWindow ι s c = false := by
  refine startsWindow_of_running (c := owner) (.inr (congrArg Engine.isShared he)) ?_
  rwa [windowCount_of_shared he, if_pos rfl]

/-- Settles O33. -/
theorem sharedEngineCountsAndReSamples : Obligations.SharedEngineCountsAndReSamples := by
  unfold Obligations.SharedEngineCountsAndReSamples
  intro btn en clr con s cnt owner he hrunning
  have hstays := startsWindow_of_running_shared (Instr.run btn en clr con).inputs he hrunning
  refine ⟨_, exec_of_no_reset rfl s, nextEngine_shared_of_no_start he hstays, ?_, ?_,
    fun c => runCycle_pend_of_no_start (hstays c)⟩
  · rw [runCycle_flag_eq, resampleReads, windowCount_of_shared he, if_pos rfl]
    rfl
  · refine runCycle_flag_of_no_resample ?_
    rw [windowCount_of_shared he, if_neg (Channel.other_ne owner).symm]
    exact Nat.zero_ne_one

/-- Settles O34: a running window's engine has no start, and a cycle reads the commands for its engine through the starts alone. -/
theorem runningWindowIgnoresTheInputs : Obligations.RunningWindowIgnoresTheInputs := by
  unfold Obligations.RunningWindowIgnoresTheInputs
  intro i j s hi hj
  refine ⟨_, _, exec_of_no_reset hi s, exec_of_no_reset hj s,
    fun c hrunning => ⟨windowCount_runCycle_of_running _ hrunning, windowCount_runCycle_of_running _ hrunning⟩,
    fun cnt owner he hrunning => ?_⟩
  refine nextEngine_of_starts_eq (funext fun c => ?_)
  rw [startsWindow_of_running_shared _ he hrunning, startsWindow_of_running_shared _ he hrunning]

/-! ## A window along a run -/

section Run

variable {σ : Nat → State} {ι : Nat → Inputs} {t : Nat} {c : Channel}

theorem NoResetFromTo.mono {a b b' : Nat} (h : NoResetFromTo ι a b) (hb : b' ≤ b) : NoResetFromTo ι a b' :=
  fun x ha hx => h x ha (hx.trans hb)

/-- The countdown of a window that starts in cycle t (41_settle_window.md R52, R55): as long as the counter is not 0 its engine starts
nothing, so each cycle takes one off. -/
theorem IsRun.windowCount_after_start (h : IsRun σ ι) (hstart : startsWindow (ι t) (σ t) c = true) {k : Nat}
    (hk : k ≤ (σ 0).settleCycles) (hnone : NoResetFromTo ι t (t + k)) :
    windowCount (σ (t + k + 1)) c = (σ 0).settleCycles - k := by
  induction k with
  | zero => exact (h.windowCount_of_no_reset (hnone t le_rfl le_rfl) c).trans (if_pos hstart)
  | succ k ih =>
    have hcount := ih (by omega) (hnone.mono (by omega))
    have hreset : (ι (t + (k + 1))).rst = false := hnone _ (by omega) le_rfl
    have hstays : startsWindow (ι (t + (k + 1))) (σ (t + (k + 1))) c = false :=
      startsWindow_of_running (c := c) (.inl rfl) (by rw [← Nat.add_assoc, hcount]; omega)
    rw [h.windowCount_of_no_reset hreset, hstays, if_neg Bool.false_ne_true, ← Nat.add_assoc, hcount]
    omega

end Run

/-- Settles O44: the countdown gives the counter of each cycle, `busy` follows it, and the cycle with counter 1 re-samples. -/
theorem windowRunsForSettleCycles : Obligations.WindowRunsForSettleCycles := by
  unfold Obligations.WindowRunsForSettleCycles
  intro σ ι t c hrun hstart hnone
  obtain ⟨-, hsettle⟩ := (params_wellFormed_iff _).mp (hrun.succ 0).1
  have hcount : ∀ k, 1 ≤ k → k ≤ (σ 0).settleCycles + 1 → windowCount (σ (t + k)) c = (σ 0).settleCycles + 1 - k := by
    intro k hk hle
    obtain ⟨k, rfl⟩ := Nat.exists_eq_add_of_le' hk
    rw [← Nat.add_assoc, hrun.windowCount_after_start hstart (by omega) (hnone.mono (by omega)), Nat.add_sub_add_right]
  have hidle : windowCount (σ t) c = 0 := windowCount_eq_zero_of_startsWindow (.inl rfl) hstart
  have hend : windowCount (σ (t + (σ 0).settleCycles + 1)) c = 0 := by
    rw [Nat.add_assoc, hcount _ (by omega) le_rfl, Nat.sub_self]
  have hone : windowCount (σ (t + (σ 0).settleCycles)) c = 1 := by
    rw [hcount _ hsettle (by omega), Nat.add_sub_cancel_left]
  simp only [busy_eq_windowCount_ne_zero, decide_eq_true_iff, decide_eq_false_iff_not, not_not]
  refine ⟨hidle, fun k hk hle => ?_, hend, ?_⟩
  · have hrunning := hcount k hk (by omega)
    exact ⟨by omega, hrunning⟩
  · rw [hrun.flag_of_no_reset (hnone _ (by omega) le_rfl), resampleReads, decide_eq_true hone, Bool.true_and]

/-- Settles O45: a start in the `SETTLE_CYCLES` cycles after another on the same engine would find that window running. -/
theorem startsOnOneEngineAreFarApart : Obligations.StartsOnOneEngineAreFarApart := by
  unfold Obligations.StartsOnOneEngineAreFarApart
  intro σ ι t u c d hrun htu hnone hengine hstart hstart'
  by_contra hnear
  obtain ⟨k, rfl⟩ : ∃ k, u = t + k + 1 := ⟨u - t - 1, by omega⟩
  have hshared : (σ (t + k + 1)).engine.isShared = (σ 0).engine.isShared :=
    congrArg Params.sharedSettle (hrun.params_eq (t + k + 1))
  have hrunning := hrun.windowCount_after_start hstart (k := k) (by omega) (hnone.mono (by omega))
  have hidle := windowCount_eq_zero_of_startsWindow (hshared ▸ hengine) hstart'
  omega

end Sys2Proof.Machine


/-! PROOFS. The event flag (42_event_flag.md): the latch (O22) and its consume (O26), the output ports (O36), and along a run the
latency of a clean press (O48) and the rejection of a bounce train (O49). -/

namespace Sys2Proof.Machine

/-- Settles O22. -/
theorem flagIsSetByAcceptedReSample : Obligations.FlagIsSetByAcceptedReSample := by
  unfold Obligations.FlagIsSetByAcceptedReSample
  intro i s c
  refine ⟨_, exec_eq_cycleOf i s, ?_⟩
  cases hrst : i.inputs.rst with
  | true => rw [cycleOf, if_pos hrst, resetCycle_flag, Bool.not_true, Bool.false_and]
  | false => rw [cycleOf_of_no_reset hrst, runCycle_flag_eq, Bool.not_false, Bool.true_and]

/-! ## A consume against the same word without it -/

/-- Two words that agree outside `consume[c]`. -/
def SameBesideConsume (c : Channel) (ι ι' : Inputs) : Prop :=
  ι.btnRaw = ι'.btnRaw ∧ ι.en = ι'.en ∧ ι.clrPend = ι'.clrPend ∧ ι.consume.get c.other = ι'.consume.get c.other

/-- The effect of a consume of channel c (42_event_flag.md R61): t is the state after the cycle with it, u after the cycle of the
same word without it. -/
def ConsumeEffect (c : Channel) (s t u : State) : Prop :=
  t.flag.get c = resampleReads s c ∧ t.flag.get c.other = u.flag.get c.other ∧ t = { u with flag := t.flag } ∧ Unchanged s t

/-- A run cycle reads the consumes into the flags alone (42_event_flag.md R61). -/
theorem runCycle_eq_up_to_flag {ι ι' : Inputs} (hbtn : ι.btnRaw = ι'.btnRaw) (hen : ι.en = ι'.en)
    (hclr : ι.clrPend = ι'.clrPend) (s : State) :
    runCycle ι s = { runCycle ι' s with flag := (runCycle ι s).flag } := by
  have hcand : cand ι s = cand ι' s := funext fun c => by rw [cand, cand, hen, hclr]
  have hstarts := startsWindow_of_cand_eq hcand
  have hpend : (runCycle ι s).pend = (runCycle ι' s).pend :=
    Pair.eq_of_get fun c => by rw [runCycle_pend_eq, runCycle_pend_eq, hclr, hstarts]
  simp only [runCycle, State.mk.injEq, true_and, and_true]
  exact ⟨nextSync_of_btnRaw_eq hbtn s, hpend, nextEngine_of_starts_eq hstarts⟩

theorem SameBesideConsume.consumeEffect {ι ι' : Inputs} {c : Channel} (h : SameBesideConsume c ι ι') (hrst : ι.rst = false)
    (hcon : ι.consume.get c = true) (s : State) : ConsumeEffect c s (runCycle ι s) (runCycle ι' s) := by
  obtain ⟨hbtn, hen, hclr, hother⟩ := h
  refine ⟨runCycle_flag_of_consume hcon s, ?_, runCycle_eq_up_to_flag hbtn hen hclr s, runCycle_unchanged hrst s⟩
  rw [runCycle_flag_eq, runCycle_flag_eq, hother]

/-- Settles O26. -/
theorem consumeClearsOnlyItsFlag : Obligations.ConsumeClearsOnlyItsFlag := by
  unfold Obligations.ConsumeClearsOnlyItsFlag
  refine ⟨fun btn en clr con1 s => ?_, fun btn en clr con0 s => ?_⟩
  · have hsame : SameBesideConsume .arm (Instr.consume0 btn en clr con1).inputs (Instr.run btn en clr ⟨false, con1⟩).inputs :=
      ⟨rfl, rfl, rfl, rfl⟩
    exact ⟨_, _, exec_of_no_reset rfl s, exec_of_no_reset rfl s, hsame.consumeEffect rfl rfl s⟩
  · have hsame : SameBesideConsume .react (Instr.consume1 btn en clr con0).inputs (Instr.run btn en clr ⟨con0, false⟩).inputs :=
      ⟨rfl, rfl, rfl, rfl⟩
    exact ⟨_, _, exec_of_no_reset rfl s, exec_of_no_reset rfl s, hsame.consumeEffect rfl rfl s⟩

/-! ## The output ports -/

/-- Bit c of a port vector belongs to channel c (00_scope.md R10). -/
@[simp] theorem getLsbD_portVector (p : Pair Bool) (c : Channel) : (portVector p).getLsbD c.index = p.get c := by
  obtain ⟨a, r⟩ := p
  cases c <;> cases a <;> cases r <;> rfl

/-- Settles O36. -/
theorem outputsAreTheRegisters : Obligations.OutputsAreTheRegisters := by
  unfold Obligations.OutputsAreTheRegisters
  intro s c
  have hbusy : (outputs s).busy.getLsbD c.index = busy s c := by rw [outputs, getLsbD_portVector, Pair.get_ofFn]
  refine ⟨getLsbD_portVector s.flag c, getLsbD_portVector s.pend c, fun cnt he => ?_, fun cnt owner he => ?_⟩
  · rw [hbusy, busy, he]
  · rw [hbusy, busy, he]

/-! ## A press on its way through the synchroniser -/

section Run

variable {σ : Nat → State} {ι : Nat → Inputs} {t u : Nat} {c : Channel}

theorem IsRun.priority_eq (h : IsRun σ ι) (t : Nat) : (σ t).priority = (σ 0).priority :=
  congrArg Params.priority (h.params_eq t)

/-- The level of a cycle is the line `SYNC_STAGES` cycles before (40_edge_capture.md R43). -/
theorem IsRun.level_eq_line (h : IsRun σ ι) (c : Channel) (hu : u = t + (σ 0).syncStages) :
    level (σ u) c = (ι t).btnRaw.get c :=
  hu ▸ (levelIsTheLineSyncStagesEarlier σ ι t c h).2

theorem IsRun.prev_of_no_reset (h : IsRun σ ι) (hr : (ι t).rst = false) (c : Channel) :
    (σ (t + 1)).prev.get c = level (σ t) c := by
  rw [h.succ_of_no_reset hr, runCycle_prev]
  rfl

/-- A line that goes from 0 to 1 is a raw edge `SYNC_STAGES` cycles later (40_edge_capture.md R45), unless a reset has set `prev`
in the cycle before. -/
theorem IsRun.rise_of_line_rise (h : IsRun σ ι) (hlow : (ι t).btnRaw.get c = false) (hhigh : (ι (t + 1)).btnRaw.get c = true)
    (hr : (ι (t + (σ 0).syncStages)).rst = false) : rise (σ (t + 1 + (σ 0).syncStages)) c = true := by
  have hprev : (σ (t + 1 + (σ 0).syncStages)).prev.get c = false := by
    rw [Nat.add_right_comm, h.prev_of_no_reset hr, h.level_eq_line c rfl, hlow]
  rw [rise, h.level_eq_line c rfl, hhigh, hprev, Bool.not_false, Bool.and_true]

/-- A raw edge is pending in the next cycle, whatever the commands (40_edge_capture.md R46). -/
theorem IsRun.pend_of_rise (h : IsRun σ ι) (hr : (ι u).rst = false) (hrise : rise (σ u) c = true) :
    (σ (u + 1)).pend.get c = true := by
  have hnext : rise (nextCycle (σ u)) c = true := hrise
  rw [h.succ_of_no_reset hr, runCycle_pend_eq, hnext, Bool.true_or]

end Run

/-- A candidate whose engine is idle starts its window, in shared mode unless the other channel is `PRIORITY` and a candidate too
(41_settle_window.md R51, R56). -/
theorem startsWindow_of_idle_and_winning {ι : Inputs} {s : State} {c : Channel} (hcand : cand ι s c = true)
    (hind : ∀ cnt, s.engine = .independent cnt → cnt.get c = 0)
    (hsh : ∀ cnt owner, s.engine = .shared cnt owner → cnt = 0 ∧ (c = s.priority ∨ cand ι s c.other = false)) :
    startsWindow ι s c = true := by
  cases he : s.engine with
  | independent cnt => rw [startsWindow_of_independent ι he, decide_eq_true (hind cnt he), hcand, Bool.true_and]
  | shared cnt owner =>
    obtain ⟨rfl, hwins⟩ := hsh cnt owner he
    refine (startsWindow_of_idle_shared ι he c).mpr ⟨hcand, ?_⟩
    by_cases hc : c = s.priority
    · exact .inl hc
    · rw [Channel.eq_other_of_ne (Ne.symm hc)]
      exact .inr (hwins.resolve_left hc)

/-! ## The re-sample of a window along a run -/

section ReSample

variable {σ : Nat → State} {ι : Nat → Inputs} {u v : Nat} {c : Channel}

/-- A cycle without an accepted re-sample raises no flag (42_event_flag.md R60). -/
theorem IsRun.flag_of_flag_succ (h : IsRun σ ι) (hread : resampleReads (σ u) c = false)
    (hflag : (σ (u + 1)).flag.get c = true) : (σ u).flag.get c = true := by
  by_contra hlow
  obtain ⟨-, haccept⟩ := h.resample_of_flag_rise (Bool.eq_false_iff.mpr hlow) hflag
  exact Bool.eq_false_iff.mp hread haccept

/-- A window that starts in cycle v re-samples in cycle v + `SETTLE_CYCLES` (41_settle_window.md R53). -/
theorem IsRun.windowCount_at_reSample (h : IsRun σ ι) (hstart : startsWindow (ι v) (σ v) c = true)
    (hnone : NoResetFromTo ι v (v + (σ 0).settleCycles)) : windowCount (σ (v + (σ 0).settleCycles)) c = 1 := by
  obtain ⟨-, hsettle⟩ := (params_wellFormed_iff _).mp (h.succ 0).1
  have hcount := h.windowCount_after_start hstart (k := (σ 0).settleCycles - 1) (by omega) (hnone.mono (by omega))
  rwa [show v + ((σ 0).settleCycles - 1) + 1 = v + (σ 0).settleCycles by omega, Nat.sub_sub_self hsettle] at hcount

/-- The cycles from a start up to the re-sample accept nothing: the counter is 0 in the first and more than 1 in the others. -/
theorem IsRun.resampleReads_before_reSample (h : IsRun σ ι) (hstart : startsWindow (ι v) (σ v) c = true)
    (hnone : NoResetFromTo ι v (v + (σ 0).settleCycles)) (hvu : v ≤ u) (hu : u < v + (σ 0).settleCycles) :
    resampleReads (σ u) c = false := by
  have hcount : windowCount (σ u) c ≠ 1 := by
    obtain rfl | hlt := Nat.eq_or_lt_of_le hvu
    · rw [windowCount_eq_zero_of_startsWindow (.inl rfl) hstart]
      exact Nat.zero_ne_one
    · obtain ⟨k, rfl⟩ : ∃ k, u = v + k + 1 := ⟨u - v - 1, by omega⟩
      rw [h.windowCount_after_start hstart (by omega) (hnone.mono (by omega))]
      omega
  rw [resampleReads, decide_eq_false hcount, Bool.false_and]

/-- The re-sample of a window reads the line `SYNC_STAGES` cycles before it (42_event_flag.md R65). -/
theorem IsRun.resampleReads_eq_line (h : IsRun σ ι) {x : Nat} (hcount : windowCount (σ u) c = 1)
    (hu : u = x + (σ 0).syncStages) : resampleReads (σ u) c = (ι x).btnRaw.get c := by
  rw [resampleReads, decide_eq_true hcount, Bool.true_and, h.level_eq_line c hu]

/-- A window that runs after an idle cycle v has started in v or later, so its re-sample is no earlier than
v + `SETTLE_CYCLES`. -/
theorem IsRun.reSample_ge_of_idle (h : IsRun σ ι) (hnone : ∀ x, v ≤ x → (ι x).rst = false)
    (hidle : windowCount (σ v) c = 0) (hvu : v ≤ u) :
    windowCount (σ u) c ≠ 0 → v + (σ 0).settleCycles + 1 ≤ u + windowCount (σ u) c := by
  induction u, hvu using Nat.le_induction with
  | base => exact fun hrunning => absurd hidle hrunning
  | succ u hvu ih =>
    rw [h.windowCount_of_no_reset (hnone u hvu)]
    split
    case isTrue => omega
    case isFalse => omega

end ReSample

/-- Settles O48: the rise passes the synchroniser, the edge detector and the latch, then its window runs to its re-sample. -/
theorem cleanPressIsAcceptedAfterLatencyCycles : Obligations.CleanPressIsAcceptedAfterLatencyCycles := by
  unfold Obligations.CleanPressIsAcceptedAfterLatencyCycles
  intro σ ι t c
  simp only [latencyCycles]
  intro hrun hlow hhigh hnone _ hen hclr hind hsh
  have hrise := hrun.rise_of_line_rise hlow hhigh (hnone _ (by omega) (by omega))
  have hpend := hrun.pend_of_rise (hnone _ (by omega) (by omega)) hrise
  have hstart : startsWindow (ι (t + 1 + (σ 0).syncStages + 1)) (σ (t + 1 + (σ 0).syncStages + 1)) c = true := by
    rw [← hrun.priority_eq (t + 1 + (σ 0).syncStages + 1)] at hsh
    exact startsWindow_of_idle_and_winning (by rw [cand, hpend, hen, hclr]; rfl) hind hsh
  have hwindow : NoResetFromTo ι (t + 1 + (σ 0).syncStages + 1) (t + 1 + (σ 0).syncStages + 1 + (σ 0).settleCycles) :=
    fun x hstartx hx => hnone x (by omega) (by omega)
  have hone := hrun.windowCount_at_reSample hstart hwindow
  have hread := hrun.resampleReads_eq_line (x := t + 1 + (σ 0).settleCycles + 1) hone (by omega)
  refine ⟨hrise, hpend, hstart, fun u hu hlt => ?_, hone, hread, fun hline => ?_⟩
  · exact hrun.flag_of_flag_succ (hrun.resampleReads_before_reSample hstart hwindow hu (by omega))
  · rw [show t + 1 + ((σ 0).syncStages + (σ 0).settleCycles + 2) =
        t + 1 + (σ 0).syncStages + 1 + (σ 0).settleCycles + 1 by omega,
      hrun.flag_of_no_reset (hwindow _ (by omega) le_rfl), hread, hline, Bool.true_or]

/-- Settles O49: a re-sample from cycle t + `SYNC_STAGES` + `SETTLE_CYCLES` + 1 on sees the line at 0, and an earlier one would belong
to a window that started in cycle t + `SYNC_STAGES` or before. -/
theorem bounceTrainIsNeverAccepted : Obligations.BounceTrainIsNeverAccepted := by
  unfold Obligations.BounceTrainIsNeverAccepted
  intro σ ι t c
  dsimp only
  intro hrun _ hnone hidle hline
  have hrejects : ∀ u, t + (σ 0).syncStages + (σ 0).settleCycles + 1 ≤ u → windowCount (σ u) c = 1 →
      resampleReads (σ u) c = false := fun u hu hone => by
    rw [hrun.resampleReads_eq_line (x := u - (σ 0).syncStages) hone (by omega), hline _ (by omega)]
  refine ⟨fun v hv hstart => ?_, fun hstays u hu => hrun.flag_of_flag_succ (Bool.eq_false_iff.mpr fun haccept => ?_)⟩
  · have hone := hrun.windowCount_at_reSample hstart fun x hvx _ => hnone x (by omega)
    exact ⟨hone, hrejects _ (by omega) hone⟩
  · obtain ⟨hone, -⟩ := (resampleReads_iff _ _).mp haccept
    have hidleNext : windowCount (σ (t + (σ 0).syncStages + 1)) c = 0 := by
      rw [hrun.windowCount_of_no_reset (hnone _ (by omega)), hstays, if_neg Bool.false_ne_true, hidle]
    obtain rfl | hlt := Nat.eq_or_lt_of_le hu
    · omega
    · have hend := hrun.reSample_ge_of_idle (fun x hx => hnone x (by omega)) hidleNext hlt (by omega)
      exact Bool.eq_false_iff.mp (hrejects u (by omega) hone) haccept

end Sys2Proof.Machine

/-! PROOFS. The cycle step (43_cycle_step.md): it is total and deterministic (O10), RUN is the composed cycle (O18), and a cycle of
one channel reads that channel, its counter and its start alone (O35). -/

namespace Sys2Proof.Machine

/-- Settles O10: a well-formed state has legal parameters, so its step is the cycle of the word on the ports. -/
theorem everyWordStepsToExactlyOneState : Obligations.EveryWordStepsToExactlyOneState := by
  unfold Obligations.EveryWordStepsToExactlyOneState
  intro s ι hwf
  obtain ⟨hp, -⟩ := (State.wf_iff_channels s).mp hwf
  have hstep := step_withInputs ι hp
  exact ⟨_, hstep, fun t ht => Host.Outcome.next.inj (ht.symm.trans hstep)⟩

/-- Settles O18: RUN carries a word with `rst = 0`. -/
theorem runIsTheComposedCycle : Obligations.RunIsTheComposedCycle := by
  unfold Obligations.RunIsTheComposedCycle
  exact fun btn en clr con s => ⟨_, exec_of_no_reset rfl s, runCycle_isRunCycle rfl s⟩

/-! ## The channels are separate -/

/-- An engine that is not shared has a counter per channel (log 3). -/
theorem Engine.eq_independent_of_isShared {e : Engine} (h : e.isShared = false) : ∃ cnt, e = .independent cnt := by
  cases e with
  | independent cnt => exact ⟨cnt, rfl⟩
  | shared _ _ => cases h

section SameChannel

variable {ι ι' : Inputs} {s s' : State} {c : Channel}

/-- The level of a channel is read from its own synchroniser (40_edge_capture.md R43). -/
theorem SameChannel.level_eq (h : SameChannel c s s') (hp : s.params = s'.params) : level s c = level s' c := by
  obtain ⟨hsync, -⟩ := h
  have hstages : s.syncStages = s'.syncStages := congrArg Params.syncStages hp
  rw [level, level, hsync, hstages]

/-- A raw edge is read from its own channel's level and `prev` (40_edge_capture.md R45). -/
theorem SameChannel.rise_eq (h : SameChannel c s s') (hp : s.params = s'.params) : rise s c = rise s' c := by
  have hlevel := h.level_eq hp
  obtain ⟨-, hprev, -⟩ := h
  rw [rise, rise, hlevel, hprev]

/-- A candidate is read from its own channel's latch and inputs (41_settle_window.md R50). -/
theorem SameChannel.cand_eq (h : SameChannel c s s') (hι : SameChannelInputs c ι ι') : cand ι s c = cand ι' s' c := by
  obtain ⟨-, -, hpend, -⟩ := h
  obtain ⟨-, -, hen, hclr, -⟩ := hι
  rw [cand, cand, hpend, hen, hclr]

/-- A re-sample is read from its own channel's counter and level (41_settle_window.md R53). -/
theorem SameChannel.resampleReads_eq (h : SameChannel c s s') (hp : s.params = s'.params)
    (hcount : windowCount s c = windowCount s' c) : resampleReads s c = resampleReads s' c := by
  rw [resampleReads, resampleReads, hcount, h.level_eq hp]

/-- An engine of its own starts a window by its channel's counter and candidate (41_settle_window.md R51). -/
theorem SameChannel.startsWindow_eq (h : SameChannel c s s') (hp : s.params = s'.params) (hι : SameChannelInputs c ι ι')
    (hown : s.engine.isShared = false) (hcount : windowCount s c = windowCount s' c) :
    startsWindow ι s c = startsWindow ι' s' c := by
  have hmode : s.engine.isShared = s'.engine.isShared := congrArg Params.sharedSettle hp
  obtain ⟨cnt, he⟩ := Engine.eq_independent_of_isShared hown
  obtain ⟨cnt', he'⟩ := Engine.eq_independent_of_isShared (hmode.symm.trans hown)
  rw [windowCount_of_independent he, windowCount_of_independent he'] at hcount
  rw [startsWindow_of_independent ι he, startsWindow_of_independent ι' he', hcount, h.cand_eq hι]

/-- The synchroniser of a channel takes in its own line (40_edge_capture.md R42). -/
theorem SameChannel.nextSync_eq (h : SameChannel c s s') (hp : s.params = s'.params) (hι : SameChannelInputs c ι ι') :
    (nextSync ι s).get c = (nextSync ι' s').get c := by
  obtain ⟨hsync, -⟩ := h
  obtain ⟨-, hbtn, -⟩ := hι
  have hstages : s.syncStages = s'.syncStages := congrArg Params.syncStages hp
  rw [nextSync, nextSync, Pair.get_ofFn, Pair.get_ofFn, hstages, hbtn, hsync]

/-- The registers of a channel after a cycle follow from themselves, the channel's inputs, its counter and its start: in either engine
mode the other channel reaches them through the counter and the start alone (43_cycle_step.md R70). -/
theorem SameChannel.after_cycle (h : SameChannel c s s') (hp : s.params = s'.params) (hι : SameChannelInputs c ι ι')
    (hcount : windowCount s c = windowCount s' c) (hstart : startsWindow ι s c = startsWindow ι' s' c) :
    SameChannel c (cycleOf ι s) (cycleOf ι' s') := by
  have hsync := h.nextSync_eq hp hι
  have hlevel := h.level_eq hp
  have hrise := h.rise_eq hp
  have hread := h.resampleReads_eq hp hcount
  obtain ⟨-, -, hpend, hflag⟩ := h
  obtain ⟨hrst, -, -, hclr, hcon⟩ := hι
  unfold cycleOf
  rw [hrst]
  split
  case isTrue => exact ⟨hsync.symm, rfl, rfl, rfl⟩
  case isFalse =>
    refine ⟨hsync.symm, ?_, ?_, ?_⟩
    · rw [runCycle_prev, runCycle_prev, hlevel]
    · rw [runCycle_pend_eq, runCycle_pend_eq, hrise, hpend, hclr, hstart]
    · rw [runCycle_flag_eq, runCycle_flag_eq, hread, hflag, hcon]

/-- The window counter of a channel after a cycle follows from itself, `rst` and the channel's start. -/
theorem windowCount_cycleOf_congr (hp : s.params = s'.params) (hι : SameChannelInputs c ι ι')
    (hcount : windowCount s c = windowCount s' c) (hstart : startsWindow ι s c = startsWindow ι' s' c) :
    windowCount (cycleOf ι s) c = windowCount (cycleOf ι' s') c := by
  have hsettle : s.settleCycles = s'.settleCycles := congrArg Params.settleCycles hp
  obtain ⟨hrst, -⟩ := hι
  unfold cycleOf
  rw [hrst]
  split
  case isTrue => rw [windowCount_resetCycle, windowCount_resetCycle]
  case isFalse => rw [windowCount_runCycle, windowCount_runCycle, hstart, hsettle, hcount]

end SameChannel

/-- Settles O35: with independent engines the start of a channel is its own too; in shared mode the start is given,
and equal engines hold equal counters. -/
theorem channelsAreSeparate : Obligations.ChannelsAreSeparate := by
  unfold Obligations.ChannelsAreSeparate
  intro i j s s' c hp hι hs
  refine ⟨_, _, exec_eq_cycleOf i s, exec_eq_cycleOf j s', fun hown hcount => ?_, fun _ hengine hstart => ?_⟩
  · have hstart := hs.startsWindow_eq hp hι hown hcount
    exact ⟨hs.after_cycle hp hι hcount hstart, windowCount_cycleOf_congr hp hι hcount hstart⟩
  · have hcount : windowCount s c = windowCount s' c := by rw [windowCount, windowCount, hengine]
    exact hs.after_cycle hp hι hcount hstart

end Sys2Proof.Machine

/-! PROOFS. The events of one channel that meet in one cycle (60_exceptions.md), row by row of the table of R75 (O23). -/

namespace Sys2Proof.Machine

/-- A raw edge sets the pending latch whatever the word: set dominates clear (40_edge_capture.md R46). -/
theorem runCycle_pend_of_rise (ι : Inputs) {s : State} {c : Channel} (h : rise s c = true) :
    (runCycle ι s).pend.get c = true := by
  rw [runCycle_pend_eq, h, Bool.true_or]

/-- Settles O23. In a RUN cycle each row of the table is decided by the raw edge, by the start or by the running window alone; a RESET
cycle writes its values whatever meets in it. -/
theorem sameCycleEventsOfAChannel : Obligations.SameCycleEventsOfAChannel := by
  unfold Obligations.SameCycleEventsOfAChannel
  intro btn en clr con s c ι
  refine ⟨⟨runCycle ι s, exec_of_no_reset rfl s, ?raw_edge_and_clear, ?raw_edge_and_start, ?clear_and_enable, ?accept_and_consume,
      ?reSample_and_start, ?masked_window⟩,
    resetCycle _ s, exec_reset btn en clr con s, resetCycle_prev s _ c, resetCycle_pend s _ c, resetCycle_flag s _ c,
      windowCount_resetCycle _ s c⟩
  case raw_edge_and_clear => exact fun hrise _ => runCycle_pend_of_rise ι hrise
  case raw_edge_and_start => exact fun hrise hstart => ⟨runCycle_pend_of_rise ι hrise, windowCount_runCycle_of_start hstart⟩
  case clear_and_enable =>
    intro hclr _ _
    refine ⟨startsWindow_of_clear hclr s, runCycle_pend_of_clear hclr s, fun hidle => ?_⟩
    rw [windowCount_runCycle_of_clear hclr, hidle]
  case accept_and_consume => exact fun haccept hconsume => (runCycle_flag_of_consume hconsume s).trans haccept
  case reSample_and_start =>
    intro hone
    have hrunning : windowCount s c ≠ 0 := by omega
    exact startsWindow_of_running (.inl rfl) hrunning
  case masked_window => exact fun _ hrunning => windowCount_runCycle_of_running ι hrunning

end Sys2Proof.Machine

/-! PROOFS. Reset and hazards (70_reset_and_hazards.md): the reset cycle (O14), a button held through a complete reset (O43), an edge
that a clear does not reach (O46), and the boot under the masking duty of channel 0 (O53). -/

namespace Sys2Proof.Machine

/-! ## A button held through a complete reset -/

section Run

variable {σ : Nat → State} {ι : Nat → Inputs} {r t : Nat} {c : Channel}

/-- After a reset cycle r only a raw edge sets the pending latch (40_edge_capture.md R46, 70_reset_and_hazards.md R85). -/
theorem IsRun.pend_of_no_rise (h : IsRun σ ι) (hr : (ι r).rst = true) (hrise : ∀ x, r < x → rise (σ x) c = false) (hrt : r < t) :
    (σ t).pend.get c = false := by
  induction t, Nat.succ_le_of_lt hrt using Nat.le_induction with
  | base => exact h.pend_of_reset hr c
  | succ t hle ih =>
    cases hreset : (ι t).rst with
    | true => exact h.pend_of_reset hreset c
    | false =>
      have hnone : rise (nextCycle (σ t)) c = false := hrise t hle
      rw [h.succ_of_no_reset hreset, runCycle_pend_eq, hnone, nextCycle_pend, ih hle, Bool.false_or, Bool.false_and,
        Bool.false_and]

/-- After a reset cycle r a flag needs a pending edge, since it rises only after a full window (00_scope.md R3). -/
theorem IsRun.flag_of_no_pend (h : IsRun σ ι) (hr : (ι r).rst = true) (hpend : ∀ x, r < x → (σ x).pend.get c = false)
    (hrt : r < t) : (σ t).flag.get c = false := by
  induction t, Nat.succ_le_of_lt hrt using Nat.le_induction with
  | base => exact h.flag_of_reset hr c
  | succ t hle ih =>
    refine Bool.eq_false_iff.mpr fun hflag => ?_
    obtain ⟨-, v, hrv, -, hedge, -⟩ := flagRisesOnlyAfterAFullWindow σ ι r t c h hr hle (ih hle) hflag
    exact Bool.eq_false_iff.mp (hpend v hrv) hedge

/-- While the level reads 1 from the reset cycle r on, `prev` stays at the 1 the reset left in it (40_edge_capture.md R44). -/
theorem IsRun.prev_of_level_held (h : IsRun σ ι) (hr : (ι r).rst = true) (hlevel : ∀ x, r < x → level (σ x) c = true)
    (hrt : r < t) : (σ t).prev.get c = true := by
  obtain ⟨x, rfl⟩ : ∃ x, t = x + 1 := ⟨t - 1, by omega⟩
  obtain rfl | hlt := Nat.eq_or_lt_of_le (Nat.le_of_lt_succ hrt)
  · exact h.prev_of_reset hr c
  · cases hreset : (ι x).rst with
    | true => exact h.prev_of_reset hreset c
    | false => rw [h.prev_of_no_reset hreset, hlevel x hlt]

end Run

/-- Settles O43. Held: the level and `prev` are both 1 in every cycle after the reset, so no raw edge comes, none is pending, and no
window can raise the flag. Pressed late: the 0 before the press is the level of a cycle after the reset, which takes it to `prev`. -/
theorem buttonHeldThroughResetIsNoPress : Obligations.ButtonHeldThroughResetIsNoPress := by
  unfold Obligations.ButtonHeldThroughResetIsNoPress
  intro σ ι r c hrun hreset
  obtain ⟨hone, -⟩ := (params_wellFormed_iff _).mp (hrun.succ 0).1
  have hlast : (ι r).rst = true := hreset.last hone
  obtain ⟨hstages, -⟩ := hreset
  refine ⟨fun hheld t hrt => ?held, fun u hru _ hlow hhigh hnone => ?pressed⟩
  case held =>
    have hlevel : ∀ x, r < x → level (σ x) c = true := fun x hx => by
      rw [hrun.level_eq_line (t := x - (σ 0).syncStages) c (by omega), hheld _ (by omega)]
    have hrise : ∀ x, r < x → rise (σ x) c = false := fun x hx => rise_of_prev (hrun.prev_of_level_held hlast hlevel hx)
    exact ⟨hrise t hrt, hrun.flag_of_no_pend hlast (fun x hx => hrun.pend_of_no_rise hlast hrise hx) hrt⟩
  case pressed => exact hrun.rise_of_line_rise hlow hhigh (hnone _ (by omega) (by omega))

/-! ## A clear and an edge in the synchroniser -/

/-- Settles O46: a clear leaves the raw edge of its cycle, and a line's rise is that raw edge only `SYNC_STAGES` cycles later. -/
theorem clearDoesNotReachIntoTheSynchroniser : Obligations.ClearDoesNotReachIntoTheSynchroniser := by
  unfold Obligations.ClearDoesNotReachIntoTheSynchroniser
  intro σ ι c hrun
  refine ⟨fun v hr hclr => ?earlier_edges, fun u hlow hhigh hnone => ?edge_in_synchroniser⟩
  case earlier_edges =>
    rw [hrun.succ_of_no_reset hr, runCycle_pend_of_clear hclr]
    rfl
  case edge_in_synchroniser =>
    have hrise := hrun.rise_of_line_rise hlow hhigh (hnone _ le_rfl (by omega))
    exact hrun.pend_of_rise (hnone _ (by omega) le_rfl) hrise

/-! ## The reset cycle and the boot -/

theorem cycleOf_of_reset {ι : Inputs} (h : ι.rst = true) (s : State) : cycleOf ι s = resetCycle ι s := by
  rw [cycleOf, if_pos h]

/-- Settles O14: the shift and the parameters are those of every cycle, the other registers take their reset values. -/
theorem resetCycleWritesTheResetValues : Obligations.ResetCycleWritesTheResetValues := by
  unfold Obligations.ResetCycleWritesTheResetValues
  intro btn en clr con s
  have hkeep := cycleOf_unchanged (Instr.reset btn en clr con).inputs s
  have hshift := cycleOf_syncShifted (Instr.reset btn en clr con).inputs s
  rw [cycleOf_of_reset rfl] at hkeep hshift
  refine ⟨_, exec_reset btn en clr con s, hkeep, hshift,
    fun c => ⟨resetCycle_prev s _ c, resetCycle_pend s _ c, resetCycle_flag s _ c⟩, fun cnt he => ?independent,
    fun cnt owner he => ?shared⟩
  case independent => rw [resetCycle_engine, he, idleEngine]
  case shared => rw [resetCycle_engine, he, idleEngine]

/-- The last word before the release of a boot is a reset word (70_reset_and_hazards.md R89). -/
theorem rst_of_bootDuty {syncStages : Nat} {resetWords : List Inputs} {last first : Inputs}
    (h : bootDuty syncStages (resetWords ++ [last]) first = true) : last.rst = true := by
  simp only [bootDuty, Bool.and_eq_true] at h
  obtain ⟨⟨⟨⟨-, hresets⟩, -⟩, -⟩, -⟩ := h
  exact List.all_eq_true.mp hresets last (List.mem_append_right _ List.mem_cons_self)

/-- A release from reset is no unmasking of channel 0 (log 14). -/
theorem unmasksArm_after_reset {before : Inputs} (h : before.rst = true) (now : Inputs) : unmasksArm before now = false := by
  rw [unmasksArm, h, Bool.not_true, Bool.false_and, Bool.false_and, Bool.false_and]

/-- In Idle the masking duty of R92 asks something of an unmasking only. -/
theorem armMaskedOutsideIdleDuty_of_no_unmasking {before now : Inputs} (h : unmasksArm before now = false) :
    armMaskedOutsideIdleDuty .idle before now = true := by
  rw [armMaskedOutsideIdleDuty, h, decide_eq_true rfl, Bool.not_false, Bool.true_or, Bool.true_or, Bool.true_and]

/-- Settles O53. That the boot's release is no unmasking is the model's choice (log 14). -/
theorem bootMeetsTheArmMaskingDuty : Obligations.BootMeetsTheArmMaskingDuty := by
  unfold Obligations.BootMeetsTheArmMaskingDuty
  intro syncStages resetWords last first hboot
  exact armMaskedOutsideIdleDuty_of_no_unmasking (unmasksArm_after_reset (rst_of_bootDuty hboot) first)

end Sys2Proof.Machine
